-- ==== Sys2Proof/Word.lean ====
section
/-! DEFINITION. The word types of the hardware, one name per width the spec gives
(`10_state.md` rule R15). The two widths that rule R8 makes parameters are in Config.lean. No
arithmetic is defined here. -/

namespace Sys2Proof

/-- A byte of the data portion of a frame, and the checksum (R38, R77). -/
abbrev Byte := BitVec 8

/-- A 32-bit word: a frame (R52) or a `TEMPERATURE` word (R18). -/
abbrev Word32 := BitVec 32

/-- A Reading written as one word (R51). -/
abbrev Word49 := BitVec 49

end Sys2Proof
end

