-- ==== Sys2Proof/Config.lean ====
section
/-! DEFINITION. What is fixed for the machine: the protocol constants of `00_scope.md` rule R9 and the
parameters of rule R8, each with the spec's default. No operation changes any of them (R31). -/

namespace Sys2Proof

/-! ### Protocol constants (R9), in microseconds or counts -/

namespace Proto

/-- `N_PRE`: preamble repetitions. -/
def nPre : Nat := 12
/-- `T_PRE_LOW`. -/
def tPreLow : Nat := 1250
/-- `T_PRE_HIGH`. -/
def tPreHigh : Nat := 1750
/-- `T_PRE_GAP`. -/
def tPreGap : Nat := 3000
/-- `T_SYNC_LOW1`. -/
def tSyncLow1 : Nat := 4200
/-- `T_SYNC_HIGH`. -/
def tSyncHigh : Nat := 5700
/-- `T_SYNC_LOW2`. -/
def tSyncLow2 : Nat := 5200
/-- `N_BITS`: data bits per frame. -/
def nBits : Nat := 32
/-- `T_BIT_FIRST`, taken as exact (R170, D9). -/
def tBitFirst : Nat := 1450
/-- `T_BIT_SECOND`, taken as exact (R170, D9). -/
def tBitSecond : Nat := 1475
/-- `T_PAUSE`. -/
def tPause : Nat := 100000
/-- `N_REP`: frame repetitions per cycle. -/
def nRep : Nat := 2
/-- `TRIGGER_PERIOD` in microseconds: 30 s, a duty of the host and no constant of the hardware (R147). -/
def triggerPeriod : Nat := 30000000

/-- The durations of R9, for the divisibility check of R10. -/
def durations : List Nat :=
  [tPreLow, tPreHigh, tPreGap, tSyncLow1, tSyncHigh, tSyncLow2, tBitFirst, tBitSecond, tPause]

end Proto

/-! ### Parameters (R8) -/

/-- `TEMP_FORMAT` (R8, D4): the format of a `TEMPERATURE` word. The spec names one; another format is
another constructor and another case of `Machine.tval`, nothing else (R88). -/
inductive TempFormat where
  /-- IEEE 754 binary32 (R39, R88). -/
  | binary32
  deriving DecidableEq, Repr

/-- `ROUND10` (R8, D5): the reading of `round(|t| * 10)`. -/
inductive Round10 where
  /-- The spec's rule: the exact product, halves up (R89). -/
  | exactProduct
  /-- The other reading that `93_implementation_defined.md` U3 describes: the product is rounded to
  binary32 first (nearest, ties to even). -/
  | binary32Product
  deriving DecidableEq, Repr

/-- What stands for `TOL_US`'s open value (R8, R169, D19). A free value: nothing can be proved of it,
and no rule uses it (log entry 7). -/
opaque openTolUs : Nat

/-- The parameters of R8, every one a field, with the boolean `SIGN_ON_CLAMP` of `93_implementation_defined.md` U1. The
defaults are the spec's. -/
structure Config where
  /-- `TICK_US`: microseconds per clock period. -/
  tickUs : Nat := 1
  /-- `ADDR_W`: width in bits of the `ADDRESS` register. -/
  addrW : Nat := 8
  /-- `CHAN_W`: width in bits of the `CHANNEL` register. -/
  chanW : Nat := 8
  /-- `TEMP_FORMAT`. -/
  tempFormat : TempFormat := .binary32
  /-- `ROUND10`. -/
  round10 : Round10 := .exactProduct
  /-- `SIGN_ON_CLAMP` (U1): whether a negative out-of-range temperature sets the sign. The spec's
  choice is no (R91, C1). -/
  signOnClamp : Bool := false
  /-- `RESET_ADDRESS`. -/
  resetAddress : BitVec addrW := 0
  /-- `RESET_CHANNEL`. -/
  resetChannel : BitVec chanW := 1
  /-- `RESET_TEMPERATURE`. -/
  resetTemperature : Word32 := 0
  /-- `RESET_LOWBAT`. -/
  resetLowbat : Bool := false
  /-- `TOL_US`: open (log entry 7). -/
  tolUs : Nat := openTolUs
  deriving DecidableEq, Repr

namespace Config

/-- R10: a configuration whose `TICK_US` does not divide every duration is refused. -/
def wf (c : Config) : Bool :=
  decide (0 < c.tickUs) && Proto.durations.all fun d => decide (d % c.tickUs = 0)

/-- The hardware the machine models: every parameter at the spec's default (R8; log entry 8). Its widths are
those of the machine's types, so they must be seen by unification: hence an abbreviation. -/
abbrev hw : Config := {}

end Config

/-! ### The words whose width is a parameter -/

/-- An `ADDRESS` value: `ADDR_W` bits, unsigned (R8, R16). -/
abbrev Address := BitVec Config.hw.addrW

/-- A `CHANNEL` value: `CHAN_W` bits, unsigned (R8, R17). -/
abbrev Channel := BitVec Config.hw.chanW

end Sys2Proof
end

