-- ==== Sys2Proof/Syntax.lean ====
section
/-! DEFINITION. The operations of the hardware, one constructor per row of `spec/opcode_table.json`
(`30_encoding.md` rule R50), with the data they carry. -/

namespace Sys2Proof

/-- A Reading (R5, R14, R51): the four values of the write port, and of the four Reading registers,
which are one entity (R20). -/
structure Reading where
  /-- `ADDRESS`, `wr_address` (R16). -/
  address : Address
  /-- `CHANNEL`, `wr_channel` (R17). -/
  channel : Channel
  /-- `TEMPERATURE`, `wr_temperature` (R18). -/
  temperature : Word32
  /-- `LOWBAT`, `wr_lowbattery` (R19). -/
  lowbat : Bool
  deriving DecidableEq, Repr

/-- The fields of a frame (R52). The bits 22, 20 and 5 to 3 are no field: they are 0. -/
structure Frame32 where
  /-- `CSUM`, bits 31:24. -/
  csum : Byte
  /-- `BATT`, bit 23. -/
  batt : Bool
  /-- `SIGN`, bit 21. -/
  sign : Bool
  /-- `D_TENS`, bits 19:16. -/
  tens : BitVec 4
  /-- `D_UNITS`, bits 15:12. -/
  units : BitVec 4
  /-- `D_TENTHS`, bits 11:8. -/
  tenths : BitVec 4
  /-- `CHAN`, bits 7:6. -/
  chan : BitVec 2
  /-- `ADDR`, bits 2:0. -/
  addr : BitVec 3
  deriving DecidableEq, Repr

/-- The ten values of the `PHASE` register (R25). A type of ten values, as R65 asks: the codes 10 to 15
cannot be written down. -/
inductive Phase where
  | idle | preLow | preHigh | preGap | syncLow1 | syncHigh | syncLow2 | bitFirst | bitSecond | pause
  deriving DecidableEq, Repr

/-- The operations (R50) and the two data formats of the table. -/
inductive Instr where
  /-- `RESET` (R153): `rst = 1`. -/
  | reset
  /-- `NOP` (R70): no request. -/
  | nop
  /-- `WRITE` (R71, R74): a Reading offered on the write port. -/
  | write (r : Reading)
  /-- `TRIGGER` (R72, R75). -/
  | trigger
  /-- `WRITE_TRIGGER` (R73): both requests at one edge. -/
  | writeTrigger (r : Reading)
  /-- `CHECKSUM` (R78) of a 32-bit value. -/
  | checksum (d : Word32)
  /-- `ENCODE` (R94) of the four Reading registers. -/
  | encode
  /-- `IDLE` (R111). -/
  | idle
  /-- `PRE_LOW` (R102). -/
  | preLow
  /-- `PRE_HIGH` (R103). -/
  | preHigh
  /-- `PRE_GAP` (R104). -/
  | preGap
  /-- `SYNC_LOW1` (R105). -/
  | syncLow1
  /-- `SYNC_HIGH` (R106). -/
  | syncHigh
  /-- `SYNC_LOW2` (R107). -/
  | syncLow2
  /-- `BIT_FIRST` (R108). -/
  | bitFirst
  /-- `BIT_SECOND` (R109). -/
  | bitSecond
  /-- `PAUSE` (R110). -/
  | pause
  /-- `BIT0` (R114). -/
  | bit0
  /-- `BIT1` (R114). -/
  | bit1
  /-- `PREAMBLE` (R112). -/
  | preamble
  /-- `SYNC` (R113). -/
  | sync
  /-- `DATA` (R115) of the `FRAME` register. -/
  | data
  /-- `TXFRAME` (R123) of the `FRAME` register. -/
  | txframe
  /-- `TXCYCLE` (R124) of the `FRAME` register. -/
  | txcycle
  /-- `FRAME32` (R52): the frame format with these fields. -/
  | frame32 (f : Frame32)
  /-- `READING` (R51): the Reading format with these values. -/
  | reading (r : Reading)
  deriving DecidableEq, Repr

/-- The operation a `PHASE` value selects (R50, R62). -/
def Phase.instr : Phase → Instr
  | .idle => .idle
  | .preLow => .preLow
  | .preHigh => .preHigh
  | .preGap => .preGap
  | .syncLow1 => .syncLow1
  | .syncHigh => .syncHigh
  | .syncLow2 => .syncLow2
  | .bitFirst => .bitFirst
  | .bitSecond => .bitSecond
  | .pause => .pause

/-- The phase whose operation an instruction is, if it is one. -/
def Instr.phase? : Instr → Option Phase
  | .idle => some .idle
  | .preLow => some .preLow
  | .preHigh => some .preHigh
  | .preGap => some .preGap
  | .syncLow1 => some .syncLow1
  | .syncHigh => some .syncHigh
  | .syncLow2 => some .syncLow2
  | .bitFirst => some .bitFirst
  | .bitSecond => some .bitSecond
  | .pause => some .pause
  | .reset | .nop | .write _ | .trigger | .writeTrigger _ | .checksum _ | .encode | .bit0 | .bit1
  | .preamble | .sync | .data | .txframe | .txcycle | .frame32 _ | .reading _ => none

end Sys2Proof
end

