-- ==== Sys2Proof/Machine/Checksum.lean ====
section
/-! DEFINITION. The Checksum Calculator (`41_checksum.md`): a pure function of one 32-bit value. -/

namespace Sys2Proof.Machine

/-- The sum of the three bytes of the data portion, 0 to 765 (R78, R79). -/
def byteSum (d : Word32) : Nat :=
  (d.extractLsb' 16 8).toNat + (d.extractLsb' 8 8).toNat + (d.extractLsb' 0 8).toNat

/-- R78's single fold: `(sum >> 8) + (sum & 0xFF)`, on numbers. -/
def foldOnce (sum : Nat) : Nat := sum / 2 ^ 8 + sum % 2 ^ 8

/-- `Checksum(d)` (R78): the byte sum, one carry fold, truncated to eight bits. -/
def checksum (d : Word32) : Byte := BitVec.ofNat 8 (foldOnce (byteSum d))

end Sys2Proof.Machine
end

