-- ==== Sys2Proof/Machine/Layout.lean ====
section
/-! DEFINITION. The bit layouts of the two data formats, FRAME32 (`30_encoding.md` rule R52) and
READING (R51): fields to word, and word to fields. -/

namespace Sys2Proof

/-- One bit as a number of `n` bits. -/
def bitWord (n : Nat) (b : Bool) : BitVec n := (BitVec.ofBool b).setWidth n

/-- The 32-bit word of a frame's fields, each at its offset (R52, and R94's closed form). -/
def Frame32.word (f : Frame32) : Word32 :=
  f.addr.setWidth 32 ||| f.chan.setWidth 32 <<< 6 ||| f.tenths.setWidth 32 <<< 8 |||
    f.units.setWidth 32 <<< 12 ||| f.tens.setWidth 32 <<< 16 ||| bitWord 32 f.sign <<< 21 |||
    bitWord 32 f.batt <<< 23 ||| f.csum.setWidth 32 <<< 24

/-- The fields of a 32-bit word, at the positions of R52. -/
def Frame32.ofWord (w : Word32) : Frame32 where
  csum := w.extractLsb' 24 8
  batt := w.getLsbD 23
  sign := w.getLsbD 21
  tens := w.extractLsb' 16 4
  units := w.extractLsb' 12 4
  tenths := w.extractLsb' 8 4
  chan := w.extractLsb' 6 2
  addr := w.extractLsb' 0 3

/-- The bits of a frame that are no field: 22, 20, 5, 4, 3 (R52, R59). -/
def frameZeroMask : Word32 := 0x00500038

/-- The 49-bit word of a Reading: `{lowbattery, temperature, channel, address}` (R51). -/
def Reading.word (r : Reading) : Word49 :=
  r.address.setWidth 49 ||| r.channel.setWidth 49 <<< 8 ||| r.temperature.setWidth 49 <<< 16 |||
    bitWord 49 r.lowbat <<< 48

/-- The Reading a 49-bit word writes down (R51). -/
def Reading.ofWord (w : Word49) : Reading where
  address := w.extractLsb' 0 8
  channel := w.extractLsb' 8 8
  temperature := w.extractLsb' 16 32
  lowbat := w.getLsbD 48

end Sys2Proof
end

