-- ==== Sys2Proof/WellFormed.lean ====
section
/-! DEFINITION. Well-formed operations. An operand's type bounds it already, except for the fields of
a FRAME32: the words the encoder never produces are ruled out here (`30_encoding.md` rule R66). -/

namespace Sys2Proof

namespace Frame32

/-- R66 (b), R97: each digit nibble is 0 to 9. -/
def digitsOk (f : Frame32) : Bool :=
  decide (f.tens.toNat ≤ 9) && decide (f.units.toNat ≤ 9) && decide (f.tenths.toNat ≤ 9)

/-- R89: the magnitude the three digits write is at most 990 (log entry 9). -/
def magnitudeOk (f : Frame32) : Bool :=
  decide (100 * f.tens.toNat + 10 * f.units.toNat + f.tenths.toNat ≤ 990)

/-- R66 (d), R93: `CSUM` is the checksum of the data portion. -/
def checksumOk (f : Frame32) : Bool := decide (f.csum = Machine.checksum f.word)

/-- The frames R66 leaves to the encoder. (Case (a) of R66 cannot be written as fields.) -/
def wf (f : Frame32) : Bool := f.digitsOk && f.magnitudeOk && f.checksumOk

end Frame32

/-- Well-formed operations: the operands of every other operation may have any value (R71, R80, R95). -/
def Instr.wf : Instr → Bool
  | .frame32 f => f.wf
  | .reset | .nop | .write _ | .trigger | .writeTrigger _ | .checksum _ | .encode
  | .idle | .preLow | .preHigh | .preGap | .syncLow1 | .syncHigh | .syncLow2 | .bitFirst | .bitSecond
  | .pause | .bit0 | .bit1 | .preamble | .sync | .data | .txframe | .txcycle | .reading _ => true

end Sys2Proof
end

