-- ==== Sys2Proof/Decode.lean ====
section
/-! DEFINITION. Decoding of the five formats that have bits (`30_encoding.md` rules R50 to R67), total
on any number and rejecting by name, and then the encoder. The formats are separate: the hardware has
no word in which they meet, so a word is decoded under the name of its format. -/

namespace Sys2Proof

/-- The formats of R50 that have selecting or content bits. -/
inductive Format where
  | hostcmd | phase | symbol | frame32 | reading
  deriving DecidableEq, Repr

/-- A word under its format. -/
structure Code where
  fmt : Format
  word : Nat
  deriving DecidableEq, Repr

/-- Why a word is no operation. -/
inductive Reject where
  /-- The word has a bit over the format's width (R50's fixed lengths). -/
  | tooWide (fmt : Format) (word : Nat)
  /-- A host word with one of the unused bits 7 to 3 set (log entry 3: the model's own word). -/
  | hostPadding (word : Nat)
  /-- `PHASE` codes 10 to 15 (R65, U6: refuse). -/
  | reservedPhase (code : Nat)
  /-- A frame with bit 22, 20, 5, 4 or 3 set (R59, R66 (a)). -/
  | reservedFrameBits (word : Nat)
  deriving DecidableEq, Repr

/-- The width of a format in bits (R50). A host word is the three request lines in bits 2 to 0 and the
49 lines of the write port in bits 56 to 8 (log entry 3). -/
def Format.width : Format → Nat
  | .hostcmd => 57
  | .phase => 4
  | .symbol => 1
  | .frame32 => 32
  | .reading => 49

/-- The host operation that `{rst, trigger, wr_valid}` selects (R63), with the write port as the
operand of the operations that take one. -/
def hostInstr (rst trigger wrValid : Bool) (r : Reading) : Instr :=
  match rst, trigger, wrValid with
  | true, _, _ => .reset
  | false, false, false => .nop
  | false, false, true => .write r
  | false, true, false => .trigger
  | false, true, true => .writeTrigger r

/-- HOSTCMD (R63), with the write port over it. -/
def decodeHost (w : Nat) : Except Reject Instr :=
  if 2 ^ 57 ≤ w then .error (.tooWide .hostcmd w)
  else if w / 8 % 32 ≠ 0 then .error (.hostPadding w)
  else .ok (hostInstr (w.testBit 2) (w.testBit 1) (w.testBit 0) (Reading.ofWord (BitVec.ofNat 49 (w / 256))))

/-- The phase of a `PHASE` code (R25). -/
def phaseOfCode : Nat → Option Phase
  | 0 => some .idle
  | 1 => some .preLow
  | 2 => some .preHigh
  | 3 => some .preGap
  | 4 => some .syncLow1
  | 5 => some .syncHigh
  | 6 => some .syncLow2
  | 7 => some .bitFirst
  | 8 => some .bitSecond
  | 9 => some .pause
  | _ => none

/-- PHASE (R62, R25). -/
def decodePhase (w : Nat) : Except Reject Instr :=
  if 2 ^ 4 ≤ w then .error (.tooWide .phase w)
  else match phaseOfCode w with
    | some p => .ok p.instr
    | none => .error (.reservedPhase w)

/-- SYMBOL (R61): the data bit selects the symbol. -/
def decodeSymbol : Nat → Except Reject Instr
  | 0 => .ok .bit0
  | 1 => .ok .bit1
  | w => .error (.tooWide .symbol w)

/-- FRAME32 (R52). -/
def decodeFrame32 (w : Nat) : Except Reject Instr :=
  if 2 ^ 32 ≤ w then .error (.tooWide .frame32 w)
  else if BitVec.ofNat 32 w &&& frameZeroMask ≠ 0 then .error (.reservedFrameBits w)
  else .ok (.frame32 (Frame32.ofWord (BitVec.ofNat 32 w)))

/-- READING (R51). -/
def decodeReading (w : Nat) : Except Reject Instr :=
  if 2 ^ 49 ≤ w then .error (.tooWide .reading w)
  else .ok (.reading (Reading.ofWord (BitVec.ofNat 49 w)))

/-- The operation a word names under its format. Total: every word is an operation or is rejected by
name. -/
def decode (c : Code) : Except Reject Instr :=
  match c.fmt with
  | .hostcmd => decodeHost c.word
  | .phase => decodePhase c.word
  | .symbol => decodeSymbol c.word
  | .frame32 => decodeFrame32 c.word
  | .reading => decodeReading c.word

/-! ### The encoder -/

/-- The `PHASE` code of a phase (R25). -/
def Phase.code : Phase → Nat
  | .idle => 0
  | .preLow => 1
  | .preHigh => 2
  | .preGap => 3
  | .syncLow1 => 4
  | .syncHigh => 5
  | .syncLow2 => 6
  | .bitFirst => 7
  | .bitSecond => 8
  | .pause => 9

/-- A host word: the request lines and the write port (R63, R51). -/
def hostCode (lines : Nat) (r : Word49) : Code := ⟨.hostcmd, lines + 2 ^ 8 * r.toNat⟩

/-- The word of an operation. The two pure functions and the five composites have no bits (R64): they
have no word. `RESET` leaves `trigger` and `wr_valid` free (R63); the encoder writes both as 0. -/
def encode : Instr → Option Code
  | .reset => some (hostCode 4 0)
  | .nop => some (hostCode 0 0)
  | .write r => some (hostCode 1 r.word)
  | .trigger => some (hostCode 2 0)
  | .writeTrigger r => some (hostCode 3 r.word)
  | .idle => some ⟨.phase, Phase.idle.code⟩
  | .preLow => some ⟨.phase, Phase.preLow.code⟩
  | .preHigh => some ⟨.phase, Phase.preHigh.code⟩
  | .preGap => some ⟨.phase, Phase.preGap.code⟩
  | .syncLow1 => some ⟨.phase, Phase.syncLow1.code⟩
  | .syncHigh => some ⟨.phase, Phase.syncHigh.code⟩
  | .syncLow2 => some ⟨.phase, Phase.syncLow2.code⟩
  | .bitFirst => some ⟨.phase, Phase.bitFirst.code⟩
  | .bitSecond => some ⟨.phase, Phase.bitSecond.code⟩
  | .pause => some ⟨.phase, Phase.pause.code⟩
  | .bit0 => some ⟨.symbol, 0⟩
  | .bit1 => some ⟨.symbol, 1⟩
  | .frame32 f => some ⟨.frame32, f.word.toNat⟩
  | .reading r => some ⟨.reading, r.word.toNat⟩
  | .checksum _ | .encode | .preamble | .sync | .data | .txframe | .txcycle => none

/-! ### The words of the opcode table -/

/-- The format of a table row of `nbits` bits (log entry 4). The exact widths of R50 name their format;
a row that the table gives in whole bytes has 8 bits for HOSTCMD, PHASE and SYMBOL alike, and is then
read as the host's request lines up to the table's last word for them, 4, and as a `PHASE` code above. -/
def tableFormat (nbits w : Nat) : Option Format :=
  match nbits with
  | 1 => some .symbol
  | 3 | 57 | 64 => some .hostcmd
  | 4 => some .phase
  | 8 => if w ≤ 4 then some .hostcmd else some .phase
  | 32 => some .frame32
  | 49 | 56 => some .reading
  | _ => none

/-- The operation the decoder reads from a word of the opcode table. -/
def decodeTableWord (nbits w : Nat) : Option Instr :=
  match tableFormat nbits w with
  | some f => (decode ⟨f, w⟩).toOption
  | none => none

end Sys2Proof
end

