-- ==== Sys2Proof/Machine/Operands.lean ====
section
/-! DEFINITION. The operand forms of the Frame Encoder: the value of a temperature word and the fields
made of the Reading's values (`42_frame_encoder.md` rules R86 to R90, `30_encoding.md` rules R53 to
R57). All arithmetic is exact, on natural numbers. -/

namespace Sys2Proof.Machine

/-- The value of a temperature word (R88). A real value is `(-1)^neg * n * 2^(-149)`: every finite
binary32 value is a whole number of units of `2^(-149)`. -/
inductive TVal where
  | nan
  | inf (neg : Bool)
  | real (neg : Bool) (n : Nat)
  deriving DecidableEq, Repr

/-- One degree in the unit of `TVal.real`. -/
def degree : Nat := 2 ^ 149

/-- `tval(w)` (R88): sign bit 31, exponent bits 30:23, fraction bits 22:0. A normal word's value is
`(2^23 + m) * 2^(e - 150)`, which is `(2^23 + m) * 2^(e - 1)` units. -/
def tval : TempFormat → Word32 → TVal
  | .binary32, w =>
    let s := w.getLsbD 31
    let e := (w.extractLsb' 23 8).toNat
    let m := (w.extractLsb' 0 23).toNat
    if e = 255 then (if m = 0 then .inf s else .nan)
    else if e = 0 then .real s m
    else .real s ((2 ^ 23 + m) * 2 ^ (e - 1))

/-- `InRange` (R88): a real number strictly between -99 and 99. -/
def TVal.inRange : TVal → Bool
  | .real _ n => decide (n < 99 * degree)
  | .nan | .inf _ => false

/-- `Neg` (R88): a real number less than 0; minus zero is not. -/
def TVal.neg : TVal → Bool
  | .real s n => s && decide (n ≠ 0)
  | .nan | .inf _ => false

/-- The number of units of `|tval|` (0 where the value is no real number; `Mag10` is asked only of
values in range). -/
def TVal.units : TVal → Nat
  | .real _ n => n
  | .nan | .inf _ => 0

/-- A natural number rounded to 24 significant bits, to nearest, ties to even (U3's other reading). -/
def roundTo24 (n : Nat) : Nat :=
  if n < 2 ^ 24 then n
  else
    let k := Nat.log2 n - 23
    let q := n / 2 ^ k
    let r := n % 2 ^ k
    if 2 ^ k < 2 * r ∨ (2 * r = 2 ^ k ∧ q % 2 = 1) then (q + 1) * 2 ^ k else q * 2 ^ k

/-- `floor(x + 1/2)` of `x` units: halves go up (R89). -/
def roundHalfUp (n : Nat) : Nat := (2 * n + degree) / (2 * degree)

/-- `Mag10` (R89): `floor(|tval| * 10 + 1/2)` of the exact product, or of the product rounded to
binary32 under U3's other reading. -/
def mag10 : Round10 → TVal → Nat
  | .exactProduct, v => roundHalfUp (10 * v.units)
  | .binary32Product, v => roundHalfUp (roundTo24 (10 * v.units))

/-- Step 1 (R86, R53): the low three bits of the address, of whatever width `ADDR_W` is. -/
def addrField {addrW : Nat} (address : BitVec addrW) : BitVec 3 := address.setWidth 3

/-- Step 2 (R87, R54): the low two bits of `channel - 1`, which wraps in `CHAN_W` bits. -/
def chanField {chanW : Nat} (channel : BitVec chanW) : BitVec 2 := (channel - 1).setWidth 2

/-- R90: the tens-of-degrees digit of a magnitude. -/
def digitTens (m : Nat) : BitVec 4 := BitVec.ofNat 4 (m / 100)

/-- R90: the units-of-degrees digit. -/
def digitUnits (m : Nat) : BitVec 4 := BitVec.ofNat 4 (m / 10 % 10)

/-- R90: the tenths-of-a-degree digit. -/
def digitTenths (m : Nat) : BitVec 4 := BitVec.ofNat 4 (m % 10)

end Sys2Proof.Machine
end

