-- ==== Sys2Proof/Machine/Encoder.lean ====
section
/-! DEFINITION. The Frame Encoder (`42_frame_encoder.md` rule R94): a pure function of a Reading. -/

namespace Sys2Proof.Machine

/-- The magnitude that step 3 splits into digits: `Mag10` in range (R90), and 0 out of range, where the
three digit fields stay zero (R91). -/
def sentMagnitude (c : Config) (w : Word32) : Nat :=
  let v := tval c.tempFormat w
  if v.inRange then mag10 c.round10 v else 0

/-- The sign that step 3 sends: `Neg` in range (R90), 0 out of range (R91), or `Neg` there too under
`SIGN_ON_CLAMP` (U1). -/
def sentSign (c : Config) (w : Word32) : Bool :=
  let v := tval c.tempFormat w
  v.neg && (v.inRange || c.signOnClamp)

/-- Steps 1 to 4 (R86, R87, R90, R91, R92): the data portion, with `CSUM` still zero. -/
def dataFields (c : Config) (r : Reading) : Frame32 where
  csum := 0
  batt := r.lowbat
  sign := sentSign c r.temperature
  tens := digitTens (sentMagnitude c r.temperature)
  units := digitUnits (sentMagnitude c r.temperature)
  tenths := digitTenths (sentMagnitude c r.temperature)
  chan := chanField r.channel
  addr := addrField r.address

/-- The fields of the whole frame: step 5 puts the checksum of the data portion into `CSUM` (R93). -/
def frameFields (c : Config) (r : Reading) : Frame32 :=
  { dataFields c r with csum := checksum (dataFields c r).word }

/-- `Encode(address, channel, temperature, lowbat)` (R94). -/
def encodeFrame (c : Config) (r : Reading) : Word32 := (frameFields c r).word

end Sys2Proof.Machine
end

