-- ==== Sys2Proof/Machine/State.lean ====
section
/-! DEFINITION. The state of the hardware (`10_state.md` rule R15), the input ports (R30), and the two
things the model adds beside the registers: the inputs still to come, and what clockless operations
have given. State is plain data. -/

namespace Sys2Proof.Machine

/-- The input ports as sampled at one rising edge (R30, R13). `clk` is the edge itself. -/
structure Ports where
  rst : Bool
  trigger : Bool
  wrValid : Bool
  /-- `wr_address`, `wr_channel`, `wr_temperature`, `wr_lowbattery`. -/
  wr : Reading
  deriving DecidableEq, Repr

/-- No request on any line, and zeros on the write port. -/
def Ports.quiet : Ports := ⟨false, false, false, ⟨0, 0, 0, false⟩⟩

/-- One item of the stimulus (log entry 1). -/
inductive Event where
  /-- A rising clock edge with these values at the input ports. -/
  | edge (p : Ports)
  /-- No edge: one operation is asked for by name. The clockless operations (the pure functions, the
  symbols, the composites, the data formats) are reached this way only. -/
  | eval (i : Instr)
  deriving DecidableEq, Repr

/-- One pin segment, `Seg(level, dur)`: the level (`true` is HIGH, R22) and the duration in
microseconds (R12, R101). -/
structure Seg where
  level : Bool
  dur : Nat
  deriving DecidableEq, Repr

/-- The value that the last pure function or data format evaluated has given (log entry 2). -/
inductive Result where
  | none
  /-- An eight-bit checksum (R77). -/
  | byte (b : Byte)
  /-- A 32-bit frame (R52). -/
  | frame (f : Word32)
  /-- A 49-bit Reading word (R51). -/
  | reading (w : Word49)
  deriving DecidableEq, Repr

/-- The whole state: the ten registers of R15 (the four Reading registers are one entity, R20), and the
model's own `stim`, `result` and `wave`. -/
structure State where
  /-- `ADDRESS`, `CHANNEL`, `TEMPERATURE`, `LOWBAT` (R16 to R20). -/
  reading : Reading
  /-- `FRAME` (R21). -/
  frame : Word32
  /-- `PIN` (R22): `true` is HIGH. -/
  pin : Bool
  /-- `PHASE` (R25). -/
  phase : Phase
  /-- `REP` (R26): `false` is 0, the first repetition. -/
  rep : Bool
  /-- `IDX` (R27). -/
  idx : BitVec 5
  /-- `TIMER` (R28). -/
  timer : BitVec 17
  /-- The model's own: the stimulus to come, first item first (log entry 1). -/
  stim : List Event
  /-- The model's own: what the last pure function or data format gave (log entry 2). -/
  result : Result
  /-- The model's own: the segments that symbols and composites have sent, oldest first. It is the
  segment-level pin history of R172 (log entry 2). -/
  wave : List Seg
  deriving DecidableEq, Repr

/-- The reasons a step can stop with a fault. There is none: the set of exception causes is empty, and
a step is never a fault (R135). Safe and exact: no operation stops. -/
inductive Fault where
  deriving DecidableEq, Repr

/-- The reasons a step can be refused. -/
inductive Refusal where
  /-- Raised by an arm of `exec` whose operation has no meaning yet. Safe: the model stops. No arm
  raises it: every operation has its meaning. -/
  | notModelled (mnemonic : String)
  deriving DecidableEq, Repr

/-- The state right after reset (R34): every register at the value the spec states, no stimulus, and
nothing evaluated. -/
def State.reset : State where
  reading := ⟨Config.hw.resetAddress, Config.hw.resetChannel, Config.hw.resetTemperature,
    Config.hw.resetLowbat⟩
  frame := 0
  pin := false
  phase := .idle
  rep := false
  idx := 0
  timer := 0
  stim := []
  result := .none
  wave := []

end Sys2Proof.Machine
end

