-- ==== Sys2Proof/Machine/Flags.lean ====
section
/-! DEFINITION. The one status value, `BUSY`, and the output ports (`10_state.md` rules R23 and R30).
The hardware has no condition codes; no operation computes a flag. -/

namespace Sys2Proof.Machine

/-- `BUSY = (PHASE != IDLE)` (R23). No register holds it. -/
def State.busy (s : State) : Bool := decide (s.phase ≠ .idle)

/-- `wr_ready = not BUSY` (R23, R30). -/
def State.wrReady (s : State) : Bool := !s.busy

/-- The output ports (R30). -/
structure Outputs where
  pin : Bool
  busy : Bool
  wrReady : Bool
  deriving DecidableEq, Repr

/-- What the world sees during a tick (R76, R130): nothing else of the state is visible (R33). -/
def State.outputs (s : State) : Outputs := ⟨s.pin, s.busy, s.wrReady⟩

end Sys2Proof.Machine
end

