-- ==== Sys2Proof/Machine/Waveform.lean ====
section
/-! DEFINITION. The Waveform Transmitter (`43_waveform.md`): the level and the duration of each phase,
the next-position function, and at the segment level the symbols and the composites. -/

namespace Sys2Proof.Machine

/-- The duration of a phase in microseconds (R25). `IDLE` has none: its entry here is never counted. -/
def dur : Phase → Nat
  | .idle => 0
  | .preLow => Proto.tPreLow
  | .preHigh => Proto.tPreHigh
  | .preGap => Proto.tPreGap
  | .syncLow1 => Proto.tSyncLow1
  | .syncHigh => Proto.tSyncHigh
  | .syncLow2 => Proto.tSyncLow2
  | .bitFirst => Proto.tBitFirst
  | .bitSecond => Proto.tBitSecond
  | .pause => Proto.tPause

/-- The pin level of a phase (R25): a constant, or the frame bit `IDX` names, or its inverse. -/
def level (p : Phase) (f : Word32) (i : BitVec 5) : Bool :=
  match p with
  | .idle | .preLow | .preGap | .syncLow1 | .syncLow2 | .pause => false
  | .preHigh | .syncHigh => true
  | .bitFirst => f.getLsbD i.toNat
  | .bitSecond => !f.getLsbD i.toNat

/-- The value `TIMER` takes on entry to a phase (R28, R117): 0 in `IDLE`, `T / TICK_US - 1` otherwise. -/
def load (c : Config) (p : Phase) : BitVec 17 :=
  if p = .idle then 0 else BitVec.ofNat 17 (dur p / c.tickUs - 1)

/-- A place in the cycle without its timer: `(PHASE, REP, IDX)`. -/
structure Position where
  phase : Phase
  rep : Bool
  idx : BitVec 5
  deriving DecidableEq, Repr

/-- `Next(PHASE, REP, IDX)` (R116). The table has no row for a preamble pulse over 11, nor for an `IDX`
other than 0 in the phases that do not count; such a position leads where the table's last row of its
phase leads (log entry 5). `IDLE` has no next position: nothing asks for it. -/
def nextPosition (p : Phase) (r : Bool) (i : BitVec 5) : Position :=
  match p with
  | .idle => ⟨.idle, false, 0⟩
  | .preLow => ⟨.preHigh, r, i⟩
  | .preHigh => if i.toNat < Proto.nPre - 1 then ⟨.preLow, r, i + 1⟩ else ⟨.preGap, r, 0⟩
  | .preGap => ⟨.syncLow1, r, 0⟩
  | .syncLow1 => ⟨.syncHigh, r, 0⟩
  | .syncHigh => ⟨.syncLow2, r, 0⟩
  | .syncLow2 => ⟨.bitFirst, r, 0⟩
  | .bitFirst => ⟨.bitSecond, r, i⟩
  | .bitSecond => if i.toNat < Proto.nBits - 1 then ⟨.bitFirst, r, i + 1⟩ else ⟨.pause, r, 0⟩
  | .pause => if r then ⟨.idle, false, 0⟩ else ⟨.preLow, true, 0⟩

/-! ### The segment level -/

/-- `rep(n, L)` (R12): `L` joined to itself `n` times. -/
def repeatSegs (n : Nat) (l : List Seg) : List Seg := (List.replicate n l).flatten

/-- `PREAMBLE` (R112). -/
def preambleSegs : List Seg :=
  repeatSegs Proto.nPre [⟨false, Proto.tPreLow⟩, ⟨true, Proto.tPreHigh⟩] ++ [⟨false, Proto.tPreGap⟩]

/-- `SYNC` (R113). -/
def syncSegs : List Seg :=
  [⟨false, Proto.tSyncLow1⟩, ⟨true, Proto.tSyncHigh⟩, ⟨false, Proto.tSyncLow2⟩]

/-- `Sym(b)` (R61, R114): the bit's level, then its inverse. -/
def symSegs (b : Bool) : List Seg := [⟨b, Proto.tBitFirst⟩, ⟨!b, Proto.tBitSecond⟩]

/-- `DATA(F)` (R115, R37): the 32 bits, least significant first. -/
def dataSegs (f : Word32) : List Seg := (List.range Proto.nBits).flatMap fun i => symSegs (f.getLsbD i)

/-- `TXFRAME(F)` (R123). -/
def txframeSegs (f : Word32) : List Seg := preambleSegs ++ syncSegs ++ dataSegs f

/-- One repetition: the frame, then the pin LOW for the pause (R124, R125). -/
def repetitionSegs (f : Word32) : List Seg := txframeSegs f ++ [⟨false, Proto.tPause⟩]

/-- `TXCYCLE(F)` (R124), which is `Trace(F)` (R126). -/
def txcycleSegs (f : Word32) : List Seg := repeatSegs Proto.nRep (repetitionSegs f)

end Sys2Proof.Machine
end

