-- ==== Sys2Proof/Machine/Ops.lean ====
section
/-! DEFINITION. The operations over the registers that the meanings share: the Reading's write, entry
into a segment and the per-tick advance, entry into a cycle (what the hardware has in place of taking
an exception, `60_exceptions.md` rule R142) and its end, reset, and fetching the next operation. -/

namespace Sys2Proof.Machine

/-- An accepted write (R71): the four Reading registers together. -/
def storeReading (r : Reading) (s : State) : State := { s with reading := r }

/-- Entry to a segment (R117): the position, the timer's load and the pin's level. At the end of a
cycle the position is `IDLE`, and this is the whole return from it (R134, R143). -/
def enter (c : Config) (s : State) (q : Position) : State :=
  { s with
    phase := q.phase
    rep := q.rep
    idx := q.idx
    timer := load c q.phase
    pin := level q.phase s.frame q.idx }

/-- One tick less of the present segment (R117). -/
def countDown (s : State) : State := { s with timer := s.timer - 1 }

/-- `Advance` (R117), the sequencer's one move per edge; in `IDLE` nothing changes (R70, R111). -/
def advance (c : Config) (s : State) : State :=
  if s.phase = .idle then s
  else if s.timer ≠ 0 then countDown s
  else enter c s (nextPosition s.phase s.rep s.idx)

/-- Entry into a cycle (R72, R142): the encoded Reading is saved into `FRAME`, and the position goes
to the first preamble segment. -/
def startCycle (c : Config) (s : State) : State :=
  enter c { s with frame := encodeFrame c s.reading } ⟨.preLow, false, 0⟩

/-- A request at an edge (R63, R140): acted on in `IDLE`; masked in `BUSY`, where the sequencer
advances as at a `NOP` (R74, R75). -/
def request (c : Config) (s : State) (act : State → State) : State :=
  if s.busy then advance c s else act s

/-- One edge at which the sequencer carries out phase `p`: selected by `PHASE = p` and by nothing else
(R50, R62), so where `PHASE` holds another code nothing of `p` happens (log entry 6). -/
def runPhase (c : Config) (p : Phase) (s : State) : State :=
  if s.phase = p then advance c s else s

/-- Reset (R153): every register to its reset value. The model's own fields are no registers
(log entry 2). -/
def resetRegs (c : Config) (s : State) : State :=
  { s with
    reading := ⟨c.resetAddress.setWidth _, c.resetChannel.setWidth _, c.resetTemperature, c.resetLowbat⟩
    frame := 0
    pin := false
    phase := .idle
    rep := false
    idx := 0
    timer := 0 }

/-- A pure function or a data format gives a value; no register changes (R43, R84, R95). -/
def give (v : Result) (s : State) : State := { s with result := v }

/-- A symbol or a composite is sent at the segment level: its segments follow what was sent before
(R101, R172); no register changes. -/
def send (l : List Seg) (s : State) : State := { s with wave := s.wave ++ l }

/-! ### Fetching the next operation -/

/-- The host operation the sampled ports select (R63, R69). -/
def Ports.instr (p : Ports) : Instr := hostInstr p.rst p.trigger p.wrValid p.wr

/-- The operation of the next step: at an edge the host operation of the sampled ports; with the
stimulus used up, an edge without a request (log entry 1). -/
def State.fetch (s : State) : Instr :=
  match s.stim with
  | [] => Ports.quiet.instr
  | .edge p :: _ => p.instr
  | .eval i :: _ => i

/-- The state with the item just fetched taken from the stimulus. -/
def State.fetched (s : State) : State := { s with stim := s.stim.tail }

/-- The ports that select a host operation, if the operation is one (R63). -/
def hostPorts : Instr → Option Ports
  | .reset => some { Ports.quiet with rst := true }
  | .nop => some Ports.quiet
  | .write r => some { Ports.quiet with wrValid := true, wr := r }
  | .trigger => some { Ports.quiet with trigger := true }
  | .writeTrigger r => some { Ports.quiet with trigger := true, wrValid := true, wr := r }
  | .checksum _ | .encode | .idle | .preLow | .preHigh | .preGap | .syncLow1 | .syncHigh | .syncLow2
  | .bitFirst | .bitSecond | .pause | .bit0 | .bit1 | .preamble | .sync | .data | .txframe | .txcycle
  | .frame32 _ | .reading _ => none

/-- The state with an operation placed where the next step finds it (log entry 4): a host operation on
the input ports, a phase in the `PHASE` register with a quiet edge, a clockless operation as a request
to evaluate it. -/
def State.place (s : State) (i : Instr) : State :=
  match i.phase?, hostPorts i with
  | some p, _ => { s with phase := p, stim := .edge .quiet :: s.stim }
  | none, some p => { s with stim := .edge p :: s.stim }
  | none, none => { s with stim := .eval i :: s.stim }

end Sys2Proof.Machine
end

