-- ==== Sys2Proof/Machine/Formats.lean ====
section
/-! DEFINITION. The two data formats of the opcode table as operations (`30_encoding.md` rules R51 and
R52): the word of the fields. They change no register (log entry 2). -/

namespace Sys2Proof.Machine

/-- `FRAME32` (R52): the 32-bit word of the fields. -/
def execFrame32 (f : Frame32) (s : State) : Host.Outcome State Fault Refusal :=
  .next (give (.frame f.word) s)

/-- `READING` (R51): the 49-bit word of the four values. -/
def execReading (r : Reading) (s : State) : Host.Outcome State Fault Refusal :=
  .next (give (.reading r.word) s)

end Sys2Proof.Machine
end

