-- ==== Sys2Proof/Machine/Functions.lean ====
section
/-! DEFINITION. The two pure functions as operations (`41_checksum.md`, `42_frame_encoder.md`). They
change no register (R84, R99); the value goes to the model's `result` (log entry 2). -/

namespace Sys2Proof.Machine

/-- `CHECKSUM` (R78) of the value given. -/
def execChecksum (d : Word32) (s : State) : Host.Outcome State Fault Refusal :=
  .next (give (.byte (checksum d)) s)

/-- `ENCODE` (R94) of the Reading registers. The edge that accepts a `TRIGGER` samples the same value
into `FRAME` (R99). -/
def execEncode (s : State) : Host.Outcome State Fault Refusal :=
  .next (give (.frame (encodeFrame Config.hw s.reading)) s)

end Sys2Proof.Machine
end

