-- ==== Sys2Proof/Machine/HostOps.lean ====
section
/-! DEFINITION. The five host operations (`40_host_operations.md`, `70_reset_and_hazards.md` rule
R153): what one rising edge does, in `IDLE` and in `BUSY`. -/

namespace Sys2Proof.Machine

/-- `RESET` (R153), with precedence over everything else (R141), in any state (R162). -/
def execReset (s : State) : Host.Outcome State Fault Refusal := .next (resetRegs Config.hw s)

/-- `NOP` (R70): in `BUSY` the sequencer advances, in `IDLE` nothing changes. -/
def execNop (s : State) : Host.Outcome State Fault Refusal := .next (request Config.hw s id)

/-- `WRITE` (R71), not accepted in `BUSY` (R74). -/
def execWrite (r : Reading) (s : State) : Host.Outcome State Fault Refusal :=
  .next (request Config.hw s (storeReading r))

/-- `TRIGGER` (R72), ignored in `BUSY` (R75). -/
def execTrigger (s : State) : Host.Outcome State Fault Refusal :=
  .next (request Config.hw s (startCycle Config.hw))

/-- `WRITE_TRIGGER` (R73): both at one edge, and the frame is of the Reading before the edge. In
`BUSY` neither is accepted (R74, R75). -/
def execWriteTrigger (r : Reading) (s : State) : Host.Outcome State Fault Refusal :=
  .next (request Config.hw s fun s => storeReading r (startCycle Config.hw s))

end Sys2Proof.Machine
end

