-- ==== Sys2Proof/Machine/Phases.lean ====
section
/-! DEFINITION. The ten phases as operations (`43_waveform.md` rules R102 to R111): one edge of the
sequencer in that phase. Each counts its timer down and at 0 goes to the next position (R116, R117). -/

namespace Sys2Proof.Machine

/-- `IDLE` (R111): the pin stays LOW and nothing counts. -/
def execIdle (s : State) : Host.Outcome State Fault Refusal := .next (runPhase Config.hw .idle s)

/-- `PRE_LOW` (R102): then `PRE_HIGH` with the same `IDX`. -/
def execPreLow (s : State) : Host.Outcome State Fault Refusal := .next (runPhase Config.hw .preLow s)

/-- `PRE_HIGH` (R103): then the next pulse's `PRE_LOW`, or `PRE_GAP` after pulse 11. -/
def execPreHigh (s : State) : Host.Outcome State Fault Refusal := .next (runPhase Config.hw .preHigh s)

/-- `PRE_GAP` (R104): then `SYNC_LOW1`. -/
def execPreGap (s : State) : Host.Outcome State Fault Refusal := .next (runPhase Config.hw .preGap s)

/-- `SYNC_LOW1` (R105): then `SYNC_HIGH`. -/
def execSyncLow1 (s : State) : Host.Outcome State Fault Refusal := .next (runPhase Config.hw .syncLow1 s)

/-- `SYNC_HIGH` (R106): then `SYNC_LOW2`. -/
def execSyncHigh (s : State) : Host.Outcome State Fault Refusal := .next (runPhase Config.hw .syncHigh s)

/-- `SYNC_LOW2` (R107): then `BIT_FIRST` of bit 0. -/
def execSyncLow2 (s : State) : Host.Outcome State Fault Refusal := .next (runPhase Config.hw .syncLow2 s)

/-- `BIT_FIRST` (R108): then `BIT_SECOND` of the same bit. -/
def execBitFirst (s : State) : Host.Outcome State Fault Refusal := .next (runPhase Config.hw .bitFirst s)

/-- `BIT_SECOND` (R109): then `BIT_FIRST` of the next bit, or `PAUSE` after bit 31. -/
def execBitSecond (s : State) : Host.Outcome State Fault Refusal := .next (runPhase Config.hw .bitSecond s)

/-- `PAUSE` (R110): then the second repetition's `PRE_LOW`, or `IDLE` after it. -/
def execPause (s : State) : Host.Outcome State Fault Refusal := .next (runPhase Config.hw .pause s)

end Sys2Proof.Machine
end

