-- ==== Sys2Proof/Machine/Segments.lean ====
section
/-! DEFINITION. The line-code symbols and the composites as operations (`43_waveform.md` rules R112 to
R115, `44_transmission_cycle.md` rules R123 and R124), at the segment level (R101, R172): each sends
its fixed list of segments. The tick level sends the same list (R117). -/

namespace Sys2Proof.Machine

/-- `BIT0` (R114). -/
def execBit0 (s : State) : Host.Outcome State Fault Refusal := .next (send (symSegs false) s)

/-- `BIT1` (R114). -/
def execBit1 (s : State) : Host.Outcome State Fault Refusal := .next (send (symSegs true) s)

/-- `PREAMBLE` (R112). -/
def execPreamble (s : State) : Host.Outcome State Fault Refusal := .next (send preambleSegs s)

/-- `SYNC` (R113). -/
def execSync (s : State) : Host.Outcome State Fault Refusal := .next (send syncSegs s)

/-- `DATA` (R115) of `FRAME`, the transmitter's only input (R100). -/
def execData (s : State) : Host.Outcome State Fault Refusal := .next (send (dataSegs s.frame) s)

/-- `TXFRAME` (R123) of `FRAME`. -/
def execTxframe (s : State) : Host.Outcome State Fault Refusal := .next (send (txframeSegs s.frame) s)

/-- `TXCYCLE` (R124) of `FRAME`. -/
def execTxcycle (s : State) : Host.Outcome State Fault Refusal := .next (send (txcycleSegs s.frame) s)

end Sys2Proof.Machine
end

