-- ==== Sys2Proof/Machine/Dispatch.lean ====
section
/-! DEFINITION. One arm per operation of `30_encoding.md` rule R50 and per data format. -/

namespace Sys2Proof.Machine

def exec (i : Instr) (s : State) : Host.Outcome State Fault Refusal :=
  match i with
  -- host operations
  | .reset => Sys2Proof.Machine.execReset s
  | .nop => Sys2Proof.Machine.execNop s
  | .write r => Sys2Proof.Machine.execWrite r s
  | .trigger => Sys2Proof.Machine.execTrigger s
  | .writeTrigger r => Sys2Proof.Machine.execWriteTrigger r s
  -- pure functions
  | .checksum d => Sys2Proof.Machine.execChecksum d s
  | .encode => Sys2Proof.Machine.execEncode s
  -- phases
  | .idle => Sys2Proof.Machine.execIdle s
  | .preLow => Sys2Proof.Machine.execPreLow s
  | .preHigh => Sys2Proof.Machine.execPreHigh s
  | .preGap => Sys2Proof.Machine.execPreGap s
  | .syncLow1 => Sys2Proof.Machine.execSyncLow1 s
  | .syncHigh => Sys2Proof.Machine.execSyncHigh s
  | .syncLow2 => Sys2Proof.Machine.execSyncLow2 s
  | .bitFirst => Sys2Proof.Machine.execBitFirst s
  | .bitSecond => Sys2Proof.Machine.execBitSecond s
  | .pause => Sys2Proof.Machine.execPause s
  -- symbols and composites
  | .bit0 => Sys2Proof.Machine.execBit0 s
  | .bit1 => Sys2Proof.Machine.execBit1 s
  | .preamble => Sys2Proof.Machine.execPreamble s
  | .sync => Sys2Proof.Machine.execSync s
  | .data => Sys2Proof.Machine.execData s
  | .txframe => Sys2Proof.Machine.execTxframe s
  | .txcycle => Sys2Proof.Machine.execTxcycle s
  -- data formats
  | .frame32 f => Sys2Proof.Machine.execFrame32 f s
  | .reading r => Sys2Proof.Machine.execReading r s

end Sys2Proof.Machine
end

