-- ==== Sys2Proof/Machine/Step.lean ====
section
/-! DEFINITION. One step of the machine (`40_host_operations.md` rules R69 and R76): the next item of
the stimulus is fetched, and its operation is run. -/

namespace Sys2Proof.Machine

/-- One step: at a clock edge, R76's `Step`. -/
def step (s : State) : Host.Outcome State Fault Refusal := exec s.fetch s.fetched

/-- The state in which the next step runs the operation that a word of the opcode table names (log
entry 4). A word that names none changes nothing. -/
def State.withFetchWord (s : State) (nbits w : Nat) : State :=
  match decodeTableWord nbits w with
  | some i => s.place i
  | none => s

end Sys2Proof.Machine
end

