-- ==== Sys2Proof/Machine/Observe.lean ====
section
/-! DEFINITION. What is observed of the hardware (`44_transmission_cycle.md` rules R126 to R130,
`43_waveform.md` rules R119 and R120): the pin as a function of time, its run-length form, and the
place of a tick in the cycle. None of this is state (R32). -/

namespace Sys2Proof.Machine

/-! ### Lists of segments as a level over time -/

/-- The total duration of a list of segments, in microseconds (R127). -/
def totalDur (l : List Seg) : Nat := (l.map Seg.dur).sum

/-- The level at a time in microseconds from the start: a segment covers from its start up to, not
including, its end (R128). After the last segment the pin is LOW (R125). -/
def levelAt : List Seg → Nat → Bool
  | [], _ => false
  | g :: l, t => if t < g.dur then g.level else levelAt l (t - g.dur)

/-- A segment put before a run-length form. -/
def joinRun (g : Seg) : List Seg → List Seg
  | [] => [g]
  | h :: l => if h.level = g.level then ⟨g.level, g.dur + h.dur⟩ :: l else g :: h :: l

/-- `RunLengths(L)` (R119): neighbours of equal level joined, their durations added. -/
def runLengths (l : List Seg) : List Seg := l.foldr joinRun []

/-- The end of the first HIGH run as long as the sync pulse, where a receiver starts to count (R120). -/
def syncEnd : List Seg → Option Nat
  | [] => none
  | g :: l =>
    if g.level = true ∧ g.dur = Proto.tSyncHigh then some g.dur else (syncEnd l).map (g.dur + ·)

/-! ### The place of a tick in the cycle (R126) -/

/-- Duration of one preamble pulse with the LOW before it. -/
def pulseUs : Nat := Proto.tPreLow + Proto.tPreHigh

/-- Duration of one data bit. -/
def bitUs : Nat := Proto.tBitFirst + Proto.tBitSecond

/-- Start of the data in a repetition. -/
def dataStartUs : Nat :=
  Proto.nPre * pulseUs + Proto.tPreGap + Proto.tSyncLow1 + Proto.tSyncHigh + Proto.tSyncLow2

/-- Duration of one frame. -/
def frameUs : Nat := dataStartUs + Proto.nBits * bitUs

/-- Duration of one repetition with its pause. -/
def repetitionUs : Nat := frameUs + Proto.tPause

/-- Duration of one cycle (R124, R127). -/
def cycleUs : Nat := Proto.nRep * repetitionUs

/-- Start of a segment within its repetition, in microseconds (R126's last column). -/
def segStart (p : Phase) (i : BitVec 5) : Nat :=
  match p with
  | .idle => 0
  | .preLow => pulseUs * i.toNat
  | .preHigh => pulseUs * i.toNat + Proto.tPreLow
  | .preGap => Proto.nPre * pulseUs
  | .syncLow1 => Proto.nPre * pulseUs + Proto.tPreGap
  | .syncHigh => Proto.nPre * pulseUs + Proto.tPreGap + Proto.tSyncLow1
  | .syncLow2 => Proto.nPre * pulseUs + Proto.tPreGap + Proto.tSyncLow1 + Proto.tSyncHigh
  | .bitFirst => dataStartUs + bitUs * i.toNat
  | .bitSecond => dataStartUs + bitUs * i.toNat + Proto.tBitFirst
  | .pause => frameUs

/-- The number of the present tick, counted from the accepting edge (R128; the column `k` of
`95_test_vectors.md` W5). Of use in `BUSY` only. -/
def cycleTick (c : Config) (s : State) : Nat :=
  ((if s.rep then repetitionUs else 0) + segStart s.phase s.idx) / c.tickUs +
    (dur s.phase / c.tickUs - 1 - s.timer.toNat)

/-- The number of edges until the hardware is in `IDLE`, none if it is there (R129, R171). -/
def ticksLeft (c : Config) (s : State) : Nat :=
  if s.phase = .idle then 0 else cycleUs / c.tickUs - cycleTick c s

/-! ### Runs -/

/-- The state after one step. A step is always a next state (R135); were it not, the state would stay. -/
def State.succ (s : State) : State :=
  match step s with
  | .next t => t
  | .fault _ => s
  | .refused _ => s

/-- The state after `k` steps. -/
def State.after : Nat → State → State
  | 0, s => s
  | k + 1, s => State.after k s.succ

/-- The observation of a run (R130): the output ports in each of the next `k` ticks, one sample a step.
A step that evaluates an operation by name is no clock edge, and the spec has no such step: giving a
sample for it too, as if a tick had passed, is the model's choice (log entry 17). Over a stimulus of
edges only, a sample is a tick. -/
def State.observe : Nat → State → List Outputs
  | 0, _ => []
  | k + 1, s => s.succ.outputs :: State.observe k s.succ

end Sys2Proof.Machine
end

