-- ==== Sys2Proof/Machine/Script.lean ====
section
/-! DEFINITION. The stimulus scripts of `30_encoding.md` rule R68, and the host's 30-second cadence
(`60_exceptions.md` rule R147). They are the host's side: notation for what is put on the input ports. -/

namespace Sys2Proof.Machine

/-- One line of a script (R68). -/
inductive ScriptLine where
  | reset
  | nop
  | wait (n : Nat)
  | waitIdle
  | write (r : Reading)
  | trigger
  | writeTrigger (r : Reading)
  deriving DecidableEq, Repr

/-- An edge with no request. -/
def quietEdge : Event := .edge .quiet

/-- An edge with a write offered. -/
def writeEdge (r : Reading) : Event := .edge { Ports.quiet with wrValid := true, wr := r }

/-- The edges of a line, from the state it begins in (R68): `WAIT_IDLE` goes up to the first edge after
which `busy = 0`, and `WRITE` holds the Reading until an edge accepts it
(log entry 16). -/
def ScriptLine.events (c : Config) (s : State) : ScriptLine → List Event
  | .reset => [.edge { Ports.quiet with rst := true }]
  | .nop => [quietEdge]
  | .wait n => List.replicate n quietEdge
  | .waitIdle => List.replicate (ticksLeft c s) quietEdge
  | .write r => List.replicate (ticksLeft c s + 1) (writeEdge r)
  | .trigger => [.edge { Ports.quiet with trigger := true }]
  | .writeTrigger r => [.edge { Ports.quiet with trigger := true, wrValid := true, wr := r }]

/-- A line carried out. -/
def ScriptLine.play (l : ScriptLine) (s : State) : State :=
  let e := l.events Config.hw s
  State.after e.length { s with stim := e ++ s.stim }

/-- A script carried out, line after line. -/
def playScript (ls : List ScriptLine) (s : State) : State := ls.foldl (fun s l => l.play s) s

/-- The edge at which a host that follows DOC1 raises `trigger` for the `j`-th time, `j` = 1, 2, …,
counted from reset release (R147). -/
def cadenceEdge (c : Config) (j : Nat) : Nat := Proto.triggerPeriod * j / c.tickUs

end Sys2Proof.Machine
end

