-- ==== Sys2Proof/Safety.lean ====
section
/-! DEFINITION. What claims call a good state: the reachable-state facts of `10_state.md` rule R29, and
what `FRAME` may hold (`30_encoding.md` rule R66). A run is safe when every step of it is a next state. -/

namespace Sys2Proof.Machine

/-- R29's facts about the position and the pin. `PHASE` in 0 to 9 is its type (R65). -/
abbrev State.PositionOk (c : Config) (s : State) : Prop :=
  (s.phase = .idle → s.rep = false ∧ s.idx = 0 ∧ s.timer = 0 ∧ s.pin = false) ∧
  (s.phase = .preLow ∨ s.phase = .preHigh → s.idx.toNat ≤ 11) ∧
  (s.phase = .preGap ∨ s.phase = .syncLow1 ∨ s.phase = .syncHigh ∨ s.phase = .syncLow2 ∨
    s.phase = .pause → s.idx = 0) ∧
  (s.phase ≠ .idle → s.timer.toNat < dur s.phase / c.tickUs) ∧
  s.pin = level s.phase s.frame s.idx

/-- `FRAME` is only ever loaded from `ENCODE` (R21, R66). -/
def State.FrameOk (c : Config) (s : State) : Prop := ∃ r, s.frame = encodeFrame c r

/-- A run of `k` steps that meets no fault and no refusal (R135). -/
def State.SafeFor (k : Nat) (s : State) : Prop := ∃ t, Host.Core.run Sys2Proof.core k s = .next t

/-! ### Terms that claims use -/

/-- The real number a temperature word stands for, by R88's formula over the rationals; no number for
`NaN` and the infinities. -/
def tempValue (w : Word32) : Option ℚ :=
  let s : ℚ := if w.getLsbD 31 then -1 else 1
  let e := (w.extractLsb' 23 8).toNat
  let m := (w.extractLsb' 0 23).toNat
  if e = 255 then none
  else if e = 0 then some (s * m * 2 ^ (-149 : ℤ))
  else some (s * (2 ^ 23 + m) * 2 ^ ((e : ℤ) - 150))

/-- A stimulus of clock edges only. -/
def edges (ps : List Ports) : List Event := ps.map Event.edge

end Sys2Proof.Machine
end

