-- ==== Sys2Proof/Certificates/Slice0/Obligations.lean ====
section
/-! DEFINITION. The statements for the provers. A statement whose docstring names a log entry rests on
that choice of the model's and not on a rule of the spec. -/

open Sys2Proof Sys2Proof.Machine

/-! ### Decoding and encoding -/

/-- Words written out from the tables of R51, R25, R61, R63 and R52. (The host word's place for the write
port, bits 56 to 8, is the model's choice: log entry 3.) -/
def Obligations.WrittenWordsDecode : Prop :=
  decode ⟨.hostcmd, 0b000⟩ = .ok .nop ∧
  decode ⟨.hostcmd, 0b001 + 256 * 0x041A800000104⟩ = .ok (.write ⟨4, 1, 0x41A80000, false⟩) ∧
  decode ⟨.hostcmd, 0b010⟩ = .ok .trigger ∧
  decode ⟨.hostcmd, 0b011 + 256 * 0x1C2F00000000C⟩ = .ok (.writeTrigger ⟨12, 0, 0xC2F00000, true⟩) ∧
  decode ⟨.hostcmd, 0b100⟩ = .ok .reset ∧ decode ⟨.hostcmd, 0b111⟩ = .ok .reset ∧
  decode ⟨.phase, 0b0000⟩ = .ok .idle ∧ decode ⟨.phase, 0b0001⟩ = .ok .preLow ∧
  decode ⟨.phase, 0b0111⟩ = .ok .bitFirst ∧ decode ⟨.phase, 0b1001⟩ = .ok .pause ∧
  decode ⟨.symbol, 0⟩ = .ok .bit0 ∧ decode ⟨.symbol, 1⟩ = .ok .bit1 ∧
  decode ⟨.frame32, 0x39A05345⟩ = .ok (.frame32 ⟨0x39, true, true, 0, 5, 3, 1, 5⟩) ∧
  decode ⟨.reading, 0x1C0A9999A0205⟩ = .ok (.reading ⟨5, 2, 0xC0A9999A, true⟩)

/-- Every operation that has a word is what its word decodes to, whatever its operands. -/
def Obligations.EncodeThenDecodeGivesItBack : Prop :=
  ∀ (i : Instr) (k : Code), encode i = some k → decode k = .ok i

/-- The other direction, for the formats in which no bit is free: the word is what its operation encodes
to, so no bit of it was dropped. -/
def Obligations.DecodeThenEncodeGivesTheWordBack : Prop :=
  ∀ (k : Code) (i : Instr), k.fmt ≠ .hostcmd → decode k = .ok i → encode i = some k

/-- Reserved words are rejected by name: the `PHASE` codes 10 to 15 (R65), frames with a bit set that
every frame has 0 (R59), and words over their format's width. -/
def Obligations.ReservedWordsAreRejected : Prop :=
  (∀ w, 10 ≤ w → w ≤ 15 → decode ⟨.phase, w⟩ = .error (.reservedPhase w)) ∧
  (∀ w : Word32,
    w &&& 0x00500038 ≠ 0 → decode ⟨.frame32, w.toNat⟩ = .error (.reservedFrameBits w.toNat)) ∧
  (∀ (f : Format) (w : Nat), 2 ^ f.width ≤ w → decode ⟨f, w⟩ = .error (.tooWide f w))

/-! ### Steps -/

/-- A step runs the operation it fetches: at a clock edge the one the sampled ports select, which is the
one the decoder reads from them; with the stimulus used up, `NOP` (log entry 1); and an operation asked
for by name is run (log entry 1). -/
def Obligations.StepRunsTheFetchedOperation : Prop :=
  (∀ s : State, s.stim = [] → step s = exec .nop s) ∧
  (∀ (s : State) (p : Ports) (l : List Event), s.stim = .edge p :: l →
    step s = exec (hostInstr p.rst p.trigger p.wrValid p.wr) { s with stim := l }) ∧
  (∀ (s : State) (i : Instr) (l : List Event),
    s.stim = .eval i :: l → step s = exec i { s with stim := l }) ∧
  (∀ p : Ports, decode ⟨.hostcmd, 4 * p.rst.toNat + 2 * p.trigger.toNat + p.wrValid.toNat +
    256 * p.wr.word.toNat⟩ = .ok (hostInstr p.rst p.trigger p.wrValid p.wr))

/-- A word of the opcode table, placed for the next step, is run by it (log entry 4). -/
def Obligations.PlacedTableWordIsRun : Prop :=
  ∀ (s : State) (n w : Nat) (i : Instr), decodeTableWord n w = some i →
    (i.phase? = none → step (s.withFetchWord n w) = exec i s) ∧
    (∀ p, i.phase? = some p → step (s.withFetchWord n w) = exec i { s with phase := p })

/-- R135: nothing faults and nothing is refused. -/
def Obligations.EveryStepIsANextState : Prop :=
  (Fault → False) ∧ (∀ (i : Instr) (s : State), ∃ t, exec i s = .next t) ∧ (∀ (k : Nat) (s : State), State.SafeFor k s)

/-- R141: `rst` first; otherwise in `IDLE` both requests, each from the state before the edge; in
`BUSY` neither, and the sequencer advances. (That the edge is taken from `stim` is log entry 1, and
that a reset leaves `result` and `wave` is the model's choice, log entry 2.) -/
def Obligations.EdgeActsOnRequestsInOrderOfPrecedence : Prop :=
  ∀ (s : State) (p : Ports) (l : List Event), s.stim = .edge p :: l → step s = .next (
    if p.rst then
      { s with
        stim := l, reading := ⟨0, 1, 0x00000000, false⟩, frame := 0, pin := false, phase := .idle
        rep := false, idx := 0, timer := 0 }
    else if s.phase = .idle then
      { s with stim := l
               reading := if p.wrValid then p.wr else s.reading
               frame := if p.trigger then encodeFrame Config.hw s.reading else s.frame
               phase := if p.trigger then .preLow else .idle
               rep := if p.trigger then false else s.rep
               idx := if p.trigger then 0 else s.idx
               timer := if p.trigger then 1249 else s.timer
               pin := if p.trigger then false else s.pin }
    else { advance Config.hw s with stim := l })

/-- R140: in `BUSY` both requests are masked, in `IDLE` neither is, and `rst` never is. -/
def Obligations.RequestsAreMaskedExactlyInBusy : Prop :=
  (∀ (s : State) (p q : Ports) (l : List Event), s.phase ≠ .idle → p.rst = false → q.rst = false →
    step { s with stim := .edge p :: l } = step { s with stim := .edge q :: l }) ∧
  (∀ (s : State) (p : Ports) (l : List Event),
    s.phase = .idle → p.rst = false → ∃ t, step { s with stim := .edge p :: l } = .next t ∧
    (p.wrValid = true → t.reading = p.wr) ∧
    (p.trigger = true → t.frame = encodeFrame Config.hw s.reading ∧ t.phase = .preLow)) ∧
  (∀ (s : State) (p : Ports) (l : List Event),
    p.rst = true → ∃ t, step { s with stim := .edge p :: l } = .next t ∧ t.phase = .idle ∧
    t.reading = ⟨0, 1, 0x00000000, false⟩ ∧ t.frame = 0)

/-! ### Host operations -/

/-- R34: the reset values, in `State.reset` and after a `RESET` in any state, the output ports then, and
the frame the reset Reading encodes to. (That `RESET` leaves the model's own fields is the model's
choice, log entry 2, and no part of R34.) -/
def Obligations.ResetGivesTheTablesValues : Prop :=
  (State.reset.reading = ⟨0, 1, 0x00000000, false⟩ ∧ State.reset.frame = 0 ∧ State.reset.pin = false ∧
    State.reset.phase = .idle ∧ State.reset.rep = false ∧ State.reset.idx = 0 ∧ State.reset.timer = 0) ∧
  (∀ s : State, exec .reset s = .next
    { s with
      reading := ⟨0, 1, 0x00000000, false⟩, frame := 0, pin := false, phase := .idle, rep := false
      idx := 0, timer := 0 }) ∧
  State.reset.outputs = ⟨false, false, true⟩ ∧
  encodeFrame Config.hw ⟨0, 1, 0x00000000, false⟩ = 0

/-- R155: the first edge after a reset can accept a write, a trigger or both. -/
def Obligations.FirstEdgeAfterResetAcceptsRequests : Prop :=
  State.reset.phase = .idle ∧ State.reset.outputs = ⟨false, false, true⟩ ∧
  ∀ (p : Ports) (l : List Event),
    p.rst = false → ∃ t, step { State.reset with stim := .edge p :: l } = .next t ∧
    (p.wrValid = true → t.reading = p.wr) ∧ (p.wrValid = false → t.reading = State.reset.reading) ∧
    (p.trigger = true → t.phase = .preLow ∧ t.frame = encodeFrame Config.hw State.reset.reading) ∧
    (p.trigger = false → t.phase = .idle)

/-- R70: `NOP` changes nothing in `IDLE`, for any number of edges, and lets the sequencer advance in
`BUSY`. -/
def Obligations.NopWaitsInIdleAndAdvancesInBusy : Prop :=
  (∀ s : State, s.phase = .idle → exec .nop s = .next s) ∧
  (∀ s : State, s.phase ≠ .idle → exec .nop s = .next (advance Config.hw s)) ∧
  (∀ (s : State) (ps : List Ports) (l : List Event),
    s.phase = .idle → (∀ q ∈ ps, q.rst = false ∧ q.trigger = false ∧ q.wrValid = false) →
    s.stim = edges ps ++ l → Host.Core.run Sys2Proof.core ps.length s = .next { s with stim := l })

/-- R71: an accepted write writes the four Reading registers and nothing else; of two, the later is
left. -/
def Obligations.AcceptedWriteStoresTheReadingAndNothingElse : Prop :=
  ∀ (s : State) (r r' : Reading), s.phase = .idle → exec (.write r) s = .next { s with reading := r } ∧
    exec (.write r') { s with reading := r } = .next { s with reading := r' } ∧
    exec (.write s.reading) s = .next s

/-- R142: entry into a cycle: what it saves, what it changes, that it masks, and nothing else. -/
def Obligations.AcceptedTriggerEntersTheCycle : Prop :=
  ∀ s : State, s.phase = .idle → ∃ t, exec .trigger s = .next t ∧
    t = { s with frame := encodeFrame Config.hw s.reading, phase := .preLow, rep := false, idx := 0,
                 timer := 1249, pin := false } ∧
    t.busy = true ∧ t.wrReady = false ∧
    (∀ r : Reading, exec (.write r) t = exec .nop t ∧ exec .trigger t = exec .nop t ∧
      exec (.writeTrigger r) t = exec .nop t)

/-- R73: both requests at one edge: the frame is of the old Reading, and the new one is stored. -/
def Obligations.WriteTriggerSendsTheOldReading : Prop :=
  ∀ (s : State) (r : Reading), s.phase = .idle → exec (.writeTrigger r) s = .next
    { s with reading := r, frame := encodeFrame Config.hw s.reading, phase := .preLow, rep := false,
             idx := 0, timer := 1249, pin := false }

/-! ### The Checksum Calculator -/

/-- R78, with the sum of 16 bits and the fold as written; `CHECKSUM` changes no register
(where its value is kept: log entry 2). -/
def Obligations.ChecksumIsTheByteSumFoldedOnce : Prop :=
  ∀ (d : Word32) (s : State), exec (.checksum d) s = .next { s with result := .byte (
    let sum : BitVec 16 := (d.extractLsb' 16 8).setWidth 16 + (d.extractLsb' 8 8).setWidth 16 +
      (d.extractLsb' 0 8).setWidth 16
    ((sum >>> 8) + (sum &&& 0xFF)).setWidth 8) }

/-- R80: `CHECKSUM` succeeds for every input, and bits 31 to 24 are not read (where the value is kept:
log entry 2). -/
def Obligations.ChecksumReadsTheDataPortionOnly : Prop :=
  ∀ (d : Word32) (s : State), ∃ b, exec (.checksum d) s = .next { s with result := .byte b } ∧
    exec (.checksum (d &&& 0x00FFFFFF)) s = .next { s with result := .byte b }

/-- The result by ranges of the byte sum (an inference that the spec marks as its own, R79). -/
def Obligations.ChecksumByRangesOfTheSum : Prop :=
  ∀ d : Word32, byteSum d ≤ 765 ∧
    (byteSum d ≤ 255 → (checksum d).toNat = byteSum d) ∧
    (256 ≤ byteSum d → byteSum d ≤ 510 → (checksum d).toNat = byteSum d - 255) ∧
    (byteSum d = 511 → checksum d = 0) ∧
    (512 ≤ byteSum d → (checksum d).toNat = byteSum d - 510)

/-- Every single-bit change of the data portion changes the checksum, and none of bits 31 to 24 does
(an inference that the spec marks as its own, R82). -/
def Obligations.ChecksumDetectsEverySingleBitChange : Prop :=
  ∀ (d : Word32) (j : Nat),
    (j < 24 → checksum (d ^^^ (1#32 <<< j)) ≠ checksum d) ∧
    (24 ≤ j → j < 32 → checksum (d ^^^ (1#32 <<< j)) = checksum d)

/-! ### The Frame Encoder -/

/-- R88: `tval` by its formula over the rationals, and the two predicates. -/
def Obligations.TemperatureWordHasTheFormulasValue : Prop :=
  ∀ w : Word32,
    let v := tval .binary32 w
    let e := (w.extractLsb' 23 8).toNat
    let m := (w.extractLsb' 0 23).toNat
    (e = 255 → m ≠ 0 → v = .nan) ∧ (e = 255 → m = 0 → v = .inf (w.getLsbD 31)) ∧
    (e ≠ 255 → ∃ s n, v = .real s n ∧
      tempValue w = some ((if s then -1 else 1) * (n : ℚ) * 2 ^ (-149 : ℤ))) ∧
    (v.inRange = true ↔ ∃ q, tempValue w = some q ∧ -99 < q ∧ q < 99) ∧
    (v.neg = true ↔ ∃ q, tempValue w = some q ∧ q < 0)

/-- `Mag10` is the floor of the exact product and a half, at most 990, and 990 exactly from 98.95 on. -/
def Obligations.MagnitudeRoundsTheExactProductHalfUp : Prop :=
  ∀ (w : Word32) (q : ℚ), tempValue w = some q → -99 < q → q < 99 →
    ((mag10 .exactProduct (tval .binary32 w) : Nat) : ℤ) = ⌊|q| * 10 + 1 / 2⌋ ∧
    mag10 .exactProduct (tval .binary32 w) ≤ 990 ∧
    (mag10 .exactProduct (tval .binary32 w) = 990 ↔ (9895 : ℚ) / 100 ≤ |q|)

/-- R94: `ENCODE` gives the closed form of the frame of the Reading registers and changes no register
(where its value is kept: log entry 2). -/
def Obligations.EncodeGivesTheClosedForm : Prop :=
  ∀ s : State, exec .encode s = .next { s with result := .frame (
    let r := s.reading
    let v := tval .binary32 r.temperature
    let m := if v.inRange then mag10 .exactProduct v else 0
    let sign := v.inRange && v.neg
    let data : Word32 := (r.address &&& 7).setWidth 32 ||| ((r.channel - 1) &&& 3).setWidth 32 <<< 6 |||
      BitVec.ofNat 32 (m % 10) <<< 8 ||| BitVec.ofNat 32 (m / 10 % 10) <<< 12 |||
      BitVec.ofNat 32 (m / 100) <<< 16 ||| (BitVec.ofBool sign).setWidth 32 <<< 21 |||
      (BitVec.ofBool r.lowbat).setWidth 32 <<< 23
    data ||| (checksum data).setWidth 32 <<< 24) }

/-- R53, R54, R57: the address, channel and battery fields of every frame. -/
def Obligations.AddressChannelAndBatteryFields : Prop :=
  ∀ r : Reading, ((encodeFrame Config.hw r).extractLsb' 0 3).toNat = r.address.toNat % 8 ∧
    (((encodeFrame Config.hw r).extractLsb' 6 2).toNat : ℤ) = ((r.channel.toNat : ℤ) - 1) % 4 ∧
    (encodeFrame Config.hw r).getLsbD 23 = r.lowbat

/-- R90: in range, the sign and the three digits of the magnitude. -/
def Obligations.InRangeTemperatureSendsSignAndDigits : Prop :=
  ∀ r : Reading, (tval .binary32 r.temperature).inRange = true →
    let m := mag10 .exactProduct (tval .binary32 r.temperature)
    (encodeFrame Config.hw r).getLsbD 21 = (tval .binary32 r.temperature).neg ∧
    ((encodeFrame Config.hw r).extractLsb' 16 4).toNat = m / 100 ∧
    ((encodeFrame Config.hw r).extractLsb' 12 4).toNat = m / 10 % 10 ∧
    ((encodeFrame Config.hw r).extractLsb' 8 4).toNat = m % 10

/-- R91: out of range, sign and digits are 0, and the frame is that of +0.0 with the same address,
channel and battery flag; both bounds are out of range, the largest word in range is `0x42C5FFFF`. -/
def Obligations.OutOfRangeTemperatureSendsPlusZero : Prop :=
  (∀ r : Reading, (tval .binary32 r.temperature).inRange = false →
    (encodeFrame Config.hw r).getLsbD 21 = false ∧ (encodeFrame Config.hw r).extractLsb' 8 12 = 0 ∧
    encodeFrame Config.hw r = encodeFrame Config.hw { r with temperature := 0x00000000 }) ∧
  (tval .binary32 0x42C60000).inRange = false ∧ (tval .binary32 0xC2C60000).inRange = false ∧
  (∀ w : Word32, (tval .binary32 w).inRange = true → w.getLsbD 31 = false → w.toNat ≤ 0x42C5FFFF) ∧
  (tval .binary32 0x42C5FFFF).inRange = true ∧ mag10 .exactProduct (tval .binary32 0x42C5FFFF) = 990 ∧
  (∀ w : Word32,
    tval .binary32 w = .nan ∨ tval .binary32 w = .inf true ∨ tval .binary32 w = .inf false →
    (tval .binary32 w).inRange = false) ∧
  (tval .binary32 0xC2F00000).inRange = false

/-- R93: the checksum field of every frame is the checksum of the data portion, and of the frame. -/
def Obligations.FrameCarriesItsChecksum : Prop :=
  ∀ r : Reading, (encodeFrame Config.hw r).extractLsb' 24 8 = checksum (encodeFrame Config.hw r) ∧
    (encodeFrame Config.hw r).extractLsb' 24 8 = checksum (encodeFrame Config.hw r &&& 0x00FFFFFF)

/-- Every frame of the encoder is well-formed: bits 22, 20, 5, 4, 3 are 0, the digits are 0 to 9, the
magnitude is at most 990, and the checksum is right (inferences that the spec marks as its own: R59,
R66, R97; the bound on the magnitude of a written frame: log entry 9). -/
def Obligations.EncodedFramesAreWellFormed : Prop :=
  ∀ r : Reading, encodeFrame Config.hw r &&& 0x00500038 = 0 ∧
    (Frame32.ofWord (encodeFrame Config.hw r)).wf = true ∧
    (Frame32.ofWord (encodeFrame Config.hw r)).word = encodeFrame Config.hw r

/-! ### The phases -/

/-- A phase that is selected counts its timer down, and nothing else changes. -/
def Obligations.PhaseCountsDown : Prop :=
  ∀ s : State, s.phase ≠ .idle → s.timer ≠ 0 →
    exec s.phase.instr s = .next { s with timer := s.timer - 1 }

/-- The end of `PRE_LOW`, `PRE_HIGH` and `PRE_GAP`. -/
def Obligations.PreamblePhasesEnd : Prop :=
  ∀ s : State, s.timer = 0 →
    (s.phase = .preLow → exec .preLow s = .next { s with phase := .preHigh, timer := 1749, pin := true }) ∧
    (s.phase = .preHigh → s.idx.toNat < 11 → exec .preHigh s =
      .next { s with phase := .preLow, idx := s.idx + 1, timer := 1249, pin := false }) ∧
    (s.phase = .preHigh → s.idx = 11 → exec .preHigh s =
      .next { s with phase := .preGap, idx := 0, timer := 2999, pin := false }) ∧
    (s.phase = .preGap → s.idx = 0 → exec .preGap s =
      .next { s with phase := .syncLow1, timer := 4199, pin := false })

/-- The end of `SYNC_LOW1`, `SYNC_HIGH` and `SYNC_LOW2`. -/
def Obligations.SyncPhasesEnd : Prop :=
  ∀ s : State, s.timer = 0 → s.idx = 0 →
    (s.phase = .syncLow1 → exec .syncLow1 s = .next { s with phase := .syncHigh, timer := 5699, pin := true }) ∧
    (s.phase = .syncHigh → exec .syncHigh s = .next { s with phase := .syncLow2, timer := 5199, pin := false }) ∧
    (s.phase = .syncLow2 → exec .syncLow2 s =
      .next { s with phase := .bitFirst, timer := 1449, pin := s.frame.getLsbD 0 })

/-- The end of `BIT_FIRST` and `BIT_SECOND`: the pin shows the frame bit, then its inverse. -/
def Obligations.DataPhasesEnd : Prop :=
  ∀ s : State, s.timer = 0 →
    (s.phase = .bitFirst → exec .bitFirst s =
      .next { s with phase := .bitSecond, timer := 1474, pin := !s.frame.getLsbD s.idx.toNat }) ∧
    (s.phase = .bitSecond → s.idx.toNat < 31 → exec .bitSecond s =
      .next { s with phase := .bitFirst, idx := s.idx + 1, timer := 1449,
                     pin := s.frame.getLsbD (s.idx.toNat + 1) }) ∧
    (s.phase = .bitSecond → s.idx = 31 → exec .bitSecond s =
      .next { s with phase := .pause, idx := 0, timer := 99999, pin := false })

/-- The end of `PAUSE`, and `IDLE`, which does not end by itself. -/
def Obligations.PauseEndsAndIdleStays : Prop :=
  (∀ s : State, s.phase = .pause → s.timer = 0 → s.idx = 0 → s.rep = false → exec .pause s =
    .next { s with phase := .preLow, rep := true, timer := 1249, pin := false }) ∧
  (∀ s : State, s.phase = .pause → s.timer = 0 → s.idx = 0 → s.rep = true → exec .pause s =
    .next { s with phase := .idle, rep := false, timer := 0, pin := false }) ∧
  (∀ s : State, s.phase = .idle → exec .idle s = .next s)

/-- `PHASE` selects which phase an edge carries out: in `BUSY` an edge without a reset is that phase's
operation, and the operation of another phase does nothing (log entry 6). -/
def Obligations.PhaseRegisterSelectsThePhase : Prop :=
  (∀ (s : State) (p : Ports) (l : List Event), s.phase ≠ .idle → p.rst = false → s.stim = .edge p :: l →
    step s = exec s.phase.instr { s with stim := l }) ∧
  (∀ (s : State) (p : Phase), p ≠ s.phase → exec p.instr s = .next s)

/-- Every segment lasts exactly `dur / TICK_US` ticks, at every `TICK_US` that divides the durations. -/
def Obligations.SegmentLastsItsDuration : Prop :=
  ∀ (c : Config) (s : State), c.wf = true → s.phase ≠ .idle → s.timer = load c s.phase →
    (∀ k, k < dur s.phase / c.tickUs →
      (advance c)^[k] s = { s with timer := load c s.phase - BitVec.ofNat 17 k }) ∧
    (advance c)^[dur s.phase / c.tickUs] s = enter c s (nextPosition s.phase s.rep s.idx)

/-- `TICK_US` may be 1, 5 or 25, and then a segment's timer load plus one is its number of ticks: the
17 bits of `TIMER` hold every load. -/
def Obligations.TickMayBeOneFiveOrTwentyFive : Prop :=
  ∀ c : Config, (c.wf = true ↔ c.tickUs = 1 ∨ c.tickUs = 5 ∨ c.tickUs = 25) ∧
    (c.wf = true → ∀ p, p ≠ .idle → (load c p).toNat + 1 = dur p / c.tickUs ∧ dur p % c.tickUs = 0)

/-! ### Symbols, composites and formats -/

/-- R114: the two symbols. Each is sent at the segment level (log entry 2), and changes no register. -/
def Obligations.SymbolsAreTwoUnequalHalves : Prop :=
  ∀ s : State, exec .bit0 s = .next { s with wave := s.wave ++ [⟨false, 1450⟩, ⟨true, 1475⟩] } ∧
    exec .bit1 s = .next { s with wave := s.wave ++ [⟨true, 1450⟩, ⟨false, 1475⟩] } ∧
    (∀ b, totalDur (symSegs b) = 2925) ∧
    runLengths (symSegs true ++ symSegs false) = [⟨true, 1450⟩, ⟨false, 2925⟩, ⟨true, 1475⟩]

/-- R112: the preamble, sent at the segment level (log entry 2). -/
def Obligations.PreambleIsTwelvePulsesAndAGap : Prop :=
  ∃ l : List Seg, (∀ s : State, exec .preamble s = .next { s with wave := s.wave ++ l }) ∧
    l = (List.replicate 12 [⟨false, 1250⟩, ⟨true, 1750⟩]).flatten ++ [⟨false, 3000⟩] ∧
    l.length = 25 ∧ totalDur l = 39000 ∧
    (∀ p, p < 12 → ∀ t, t < 3000 → levelAt l (3000 * p + t) = decide (1250 ≤ t))

/-- R113: the sync marker, sent at the segment level (log entry 2). -/
def Obligations.SyncIsLowHighLow : Prop :=
  ∃ l : List Seg, (∀ s : State, exec .sync s = .next { s with wave := s.wave ++ l }) ∧
    l = [⟨false, 4200⟩, ⟨true, 5700⟩, ⟨false, 5200⟩] ∧ l.length = 3 ∧ totalDur l = 15100 ∧
    (∀ t, levelAt (preambleSegs ++ l) t = true → 36000 ≤ t → 43200 ≤ t ∧ t < 48900) ∧
    (∀ t, 43200 ≤ t → t < 48900 → levelAt (preambleSegs ++ l) t = true)

/-- R115: the 32 bits of `FRAME`, least significant first, sent at the segment level
(log entry 2). -/
def Obligations.DataSendsTheFrameLowBitFirst : Prop :=
  ∀ s : State, ∃ l : List Seg, exec .data s = .next { s with wave := s.wave ++ l } ∧ l.length = 64 ∧
    totalDur l = 93600 ∧
    ∀ i, i < 32 → l[2 * i]? = some ⟨s.frame.getLsbD i, 1450⟩ ∧
      l[2 * i + 1]? = some ⟨!s.frame.getLsbD i, 1475⟩

/-- R123: a frame is the preamble, the sync marker and the data; the first 28 segments are the same for
every frame. Sent at the segment level (log entry 2). -/
def Obligations.TxframeIsPreambleSyncData : Prop :=
  (∀ s : State,
    exec .txframe s = .next { s with wave := s.wave ++ (preambleSegs ++ syncSegs ++ dataSegs s.frame) }) ∧
  (∀ f : Word32, (txframeSegs f).length = 92 ∧ totalDur (txframeSegs f) = 147700) ∧
  (∀ f g : Word32, (txframeSegs f).take 28 = (txframeSegs g).take 28)

/-- The composites sent one after the other are the frame (log entries 1 and 2). -/
def Obligations.CompositesSentInOrderAreTheFrame : Prop :=
  ∀ (s : State) (l : List Event), s.stim = .eval .preamble :: .eval .sync :: .eval .data :: l →
    Host.Core.run Sys2Proof.core 3 s = .next { s with stim := l, wave := s.wave ++ txframeSegs s.frame }

/-- R124: a cycle is two times the frame and the pause, of one frame word, sent at the segment
level (log entry 2). -/
def Obligations.TxcycleIsTwoFramesWithPauses : Prop :=
  ∀ s : State, ∃ l : List Seg, exec .txcycle s = .next { s with wave := s.wave ++ (l ++ l) } ∧
    l = txframeSegs s.frame ++ [⟨false, 100000⟩] ∧ (l ++ l).length = 186 ∧ totalDur (l ++ l) = 495400

/-- R52: the frame format, bit by bit; it changes no register (where the word is kept: log entry 2). -/
def Obligations.Frame32PlacesEveryField : Prop :=
  ∀ (f : Frame32) (s : State), ∃ w : Word32, exec (.frame32 f) s = .next { s with result := .frame w } ∧
    w.extractLsb' 24 8 = f.csum ∧ w.getLsbD 23 = f.batt ∧ w.getLsbD 22 = false ∧
    w.getLsbD 21 = f.sign ∧ w.getLsbD 20 = false ∧ w.extractLsb' 16 4 = f.tens ∧
    w.extractLsb' 12 4 = f.units ∧ w.extractLsb' 8 4 = f.tenths ∧ w.extractLsb' 6 2 = f.chan ∧
    w.extractLsb' 3 3 = 0 ∧ w.extractLsb' 0 3 = f.addr

/-- R51: the Reading format, bit by bit; it changes no register (where the word is kept: log entry 2). -/
def Obligations.ReadingWordPlacesEveryPort : Prop :=
  ∀ (r : Reading) (s : State),
    ∃ w : Word49, exec (.reading r) s = .next { s with result := .reading w } ∧
    w.extractLsb' 0 8 = r.address ∧ w.extractLsb' 8 8 = r.channel ∧
    w.extractLsb' 16 32 = r.temperature ∧ w.getLsbD 48 = r.lowbat

/-! ### The whole machine -/

/-- R29's facts hold after reset (an inference that the spec marks as its own), and `FRAME` is a frame
of the encoder. -/
def Obligations.ResetStateIsGood : Prop :=
  State.reset.PositionOk Config.hw ∧ State.reset.FrameOk Config.hw

/-- R29's facts are kept by every step, whatever the stimulus (an inference that the spec marks as its
own). -/
def Obligations.StepKeepsThePositionGood : Prop :=
  ∀ s t : State, s.PositionOk Config.hw → step s = .next t → t.PositionOk Config.hw

/-- `FRAME` is only ever loaded from `ENCODE` (R21, R66: the second an inference that the spec marks as
its own). -/
def Obligations.StepKeepsTheFrameEncoded : Prop :=
  ∀ s t : State, s.FrameOk Config.hw → step s = .next t → t.FrameOk Config.hw

/-- Who writes which storage: the Reading an accepted write and reset, `FRAME` an accepted trigger and
reset. -/
def Obligations.OnlyAcceptedRequestsAndResetWriteReadingAndFrame : Prop :=
  ∀ s t : State, step s = .next t →
    (t.reading ≠ s.reading → s.fetch = .reset ∨
      (s.phase = .idle ∧ (s.fetch = .write t.reading ∨ s.fetch = .writeTrigger t.reading))) ∧
    (t.frame ≠ s.frame → s.fetch = .reset ∨
      (s.phase = .idle ∧ (s.fetch = .trigger ∨ ∃ r, s.fetch = .writeTrigger r) ∧
        t.frame = encodeFrame Config.hw s.reading))

/-- R111: in `IDLE` the pin is LOW and the counters are 0; `IDLE` is left only by an accepted trigger, and
entered only by reset and by the end of the second `PAUSE`. -/
def Obligations.IdleIsLeftByTriggerAndEnteredByResetOrTheLastPause : Prop :=
  ∀ s t : State, s.PositionOk Config.hw → step s = .next t →
    (s.phase = .idle → s.pin = false ∧ s.timer = 0 ∧ s.idx = 0 ∧ s.rep = false ∧ s.busy = false) ∧
    (s.phase = .idle → t.phase ≠ .idle →
      (s.fetch = .trigger ∨ ∃ r, s.fetch = .writeTrigger r) ∧ t.phase = .preLow) ∧
    (s.phase ≠ .idle → t.phase = .idle →
      s.fetch = .reset ∨ (s.phase = .pause ∧ s.rep = true ∧ s.timer = 0))

/-- The pin tick by tick: after an accepted trigger, and whatever the requests, as long as there is no
reset, the pin in tick `k` is the level of the trace at `k` microseconds, and the hardware is in `BUSY`
(inferences that the spec marks as its own: R128, R129). -/
def Obligations.AcceptedTriggerSendsTheTrace : Prop :=
  ∀ (s : State) (p : Ports) (ps : List Ports) (l : List Event),
    s.phase = .idle → p.rst = false → p.trigger = true → (∀ q ∈ ps, q.rst = false) →
    ps.length < 495400 → s.stim = edges (p :: ps) ++ l →
    ∃ t, Host.Core.run Sys2Proof.core (ps.length + 1) s = .next t ∧
      t.pin = levelAt (txcycleSegs (encodeFrame Config.hw s.reading)) ps.length ∧ t.busy = true ∧
      t.frame = encodeFrame Config.hw s.reading ∧ cycleTick Config.hw t = ps.length ∧ t.stim = l

/-- The state at the end of a cycle: what it was before the trigger, but for `FRAME` (and the Reading, if
the trigger came with a write), and no edge earlier than `n + 495400` (inferences that the spec marks as
its own: R129, R134). -/
def Obligations.CycleEndsAfterItsDuration : Prop :=
  ∀ (s : State) (p : Ports) (ps : List Ports) (l : List Event),
    s.PositionOk Config.hw → s.phase = .idle → p.rst = false → p.trigger = true →
    (∀ q ∈ ps, q.rst = false) → ps.length = 495400 → s.stim = edges (p :: ps) ++ l →
    Host.Core.run Sys2Proof.core 495401 s = .next
      { s with stim := l, frame := encodeFrame Config.hw s.reading,
               reading := if p.wrValid then p.wr else s.reading }

/-- From any good `BUSY` state the cycle runs to its end: after exactly as many edges as are left, and not
before, the hardware is in `IDLE` (an inference that the spec marks as its own: R171). -/
def Obligations.BusyRunsToCompletion : Prop :=
  ∀ (s : State) (ps : List Ports) (l : List Event),
    s.PositionOk Config.hw → s.phase ≠ .idle → (∀ q ∈ ps, q.rst = false) →
    ps.length ≤ ticksLeft Config.hw s → s.stim = edges ps ++ l →
    ∃ t, Host.Core.run Sys2Proof.core ps.length s = .next t ∧
      (t.phase = .idle ↔ ps.length = ticksLeft Config.hw s) ∧ t.reading = s.reading ∧
      t.frame = s.frame ∧ t.stim = l

/-- No input but `rst` has any effect on a cycle: two runs that differ only in the requests give the same
state at every edge up to the cycle's end. -/
def Obligations.RequestsDoNotDisturbACycle : Prop :=
  ∀ (s : State) (ps qs : List Ports) (l : List Event),
    (∀ q ∈ ps, q.rst = false) → (∀ q ∈ qs, q.rst = false) → ps.length = qs.length →
    s.PositionOk Config.hw → ps.length ≤ ticksLeft Config.hw s →
    Host.Core.run Sys2Proof.core ps.length { s with stim := edges ps ++ l } =
      Host.Core.run Sys2Proof.core qs.length { s with stim := edges qs ++ l }

/-- A request held during a cycle is acted on at the first edge after the cycle's end: a write stores the
values on the port at that edge, a trigger starts another cycle. -/
def Obligations.HeldRequestIsTakenAfterTheCycle : Prop :=
  ∀ (s : State) (ps : List Ports) (p : Ports) (l : List Event),
    s.PositionOk Config.hw → s.phase ≠ .idle → (∀ q ∈ ps, q.rst = false) →
    ps.length = ticksLeft Config.hw s → p.rst = false → s.stim = edges (ps ++ [p]) ++ l →
    (p.trigger = false → p.wrValid = true → Host.Core.run Sys2Proof.core (ps.length + 1) s = .next
      { s with stim := l, reading := p.wr, phase := .idle, rep := false, idx := 0, timer := 0,
               pin := false }) ∧
    (p.trigger = true → p.wrValid = false → Host.Core.run Sys2Proof.core (ps.length + 1) s = .next
      { s with stim := l, frame := encodeFrame Config.hw s.reading, phase := .preLow, rep := false,
               idx := 0, timer := 1249, pin := false })

/-- The states in which the script lines `WAIT_IDLE` and `WRITE` end, from any good state. How many
edges a line takes is the model's own count, log entry 16; that `IDLE` is not reached earlier is
`BusyRunsToCompletion`. -/
def Obligations.ScriptLinesWaitAndWrite : Prop :=
  ∀ (s : State) (r : Reading), s.PositionOk Config.hw →
    (ScriptLine.waitIdle.play s).phase = .idle ∧ (ScriptLine.waitIdle.play s).reading = s.reading ∧
    (ScriptLine.waitIdle.play s).frame = s.frame ∧
    ((ScriptLine.write r).play s).reading = r ∧ ((ScriptLine.write r).play s).phase = .idle ∧
    ((ScriptLine.write r).play s).frame = s.frame

/-! ### The waveform -/

/-- The run-length form is the same waveform, and no two neighbours in it have one level (an inference
that the spec marks as its own: R119). -/
def Obligations.RunLengthsAreTheSameWaveform : Prop :=
  ∀ l : List Seg, (∀ t, levelAt (runLengths l) t = levelAt l t) ∧ totalDur (runLengths l) = totalDur l ∧
    ∀ i g h, (runLengths l)[i]? = some g → (runLengths l)[i + 1]? = some h → g.level ≠ h.level

/-- The 32 bits can be read back from the pin's run-length form, so two frames never have one waveform
(an inference that the spec marks as its own: R120). -/
def Obligations.FrameCanBeReadBackFromThePin : Prop :=
  ∀ f : Word32,
    (∃ e, syncEnd (runLengths (txframeSegs f)) = some e ∧
      ∀ i, i < 32 → ∀ u, u < 1450 →
        levelAt (runLengths (txframeSegs f)) (e + 5200 + 2925 * i + u) = f.getLsbD i) ∧
    ∀ g : Word32, runLengths (txframeSegs f) = runLengths (txframeSegs g) → f = g

/-- The widths of the HIGH pulses of one frame: the preamble's, the sync pulse once, and in the data 1450,
1475 or 2925 (an inference that the spec marks as its own: R121). -/
def Obligations.HighPulseWidthsOfAFrame : Prop :=
  ∀ f : Word32,
    (∀ g ∈ runLengths (txframeSegs f), g.level = true → g.dur ∈ [1750, 5700, 1450, 1475, 2925]) ∧
    ((runLengths (txframeSegs f)).filter fun g => g.level && g.dur == 1750).length = 12 ∧
    ((runLengths (txframeSegs f)).filter fun g => g.level && g.dur == 5700).length = 1

/-- The trace by the table: level, duration and start of each of its segments (an inference that the spec
marks as its own: R126). -/
def Obligations.TraceIsTheTable : Prop :=
  ∀ f : Word32, (txcycleSegs f).length = 186 ∧
    (∀ j, j < 93 → (txcycleSegs f)[j + 93]? = (txcycleSegs f)[j]?) ∧
    (∀ p, p < 12 → (txcycleSegs f)[2 * p]? = some ⟨false, 1250⟩ ∧
      (txcycleSegs f)[2 * p + 1]? = some ⟨true, 1750⟩ ∧
      totalDur ((txcycleSegs f).take (2 * p)) = 3000 * p) ∧
    (txcycleSegs f)[24]? = some ⟨false, 3000⟩ ∧ (txcycleSegs f)[25]? = some ⟨false, 4200⟩ ∧
    (txcycleSegs f)[26]? = some ⟨true, 5700⟩ ∧ (txcycleSegs f)[27]? = some ⟨false, 5200⟩ ∧
    (∀ i, i < 32 → (txcycleSegs f)[28 + 2 * i]? = some ⟨f.getLsbD i, 1450⟩ ∧
      (txcycleSegs f)[29 + 2 * i]? = some ⟨!f.getLsbD i, 1475⟩ ∧
      totalDur ((txcycleSegs f).take (28 + 2 * i)) = 54100 + 2925 * i) ∧
    (txcycleSegs f)[92]? = some ⟨false, 100000⟩ ∧ totalDur ((txcycleSegs f).take 92) = 147700 ∧
    totalDur ((txcycleSegs f).take 93) = 247700
end

