-- ==== Sys2Proof/Laws/Encoder.lean ====
section
/-! SUPPORT. The spec lemmas of the Checksum Calculator, of the temperature's value and of the two data
layouts. -/

namespace Sys2Proof.Laws

open Sys2Proof.Machine

/-! ### Checksum (R78, R79) -/

theorem byteSum_le (d : Word32) : byteSum d ≤ 765 := by
  have a := (d.extractLsb' 16 8).isLt
  have b := (d.extractLsb' 8 8).isLt
  have e := (d.extractLsb' 0 8).isLt
  simp only [byteSum]
  omega

theorem checksum_toNat (d : Word32) :
    (checksum d).toNat = (byteSum d / 256 + byteSum d % 256) % 256 := by
  simp [checksum, foldOnce]

/-! ### Temperature (R88, R89) -/

theorem inRange_iff (v : TVal) : v.inRange = true ↔ ∃ s n, v = .real s n ∧ n < 99 * degree := by
  cases v <;> simp [TVal.inRange]

theorem neg_iff (v : TVal) : v.neg = true ↔ ∃ n, v = .real true n ∧ n ≠ 0 := by
  cases v <;> simp [TVal.neg]

/-- A magnitude in range is at most 990 (R89). -/
theorem mag10_le (v : TVal) (h : v.inRange = true) : mag10 .exactProduct v ≤ 990 := by
  obtain ⟨s, n, rfl, hn⟩ := (inRange_iff v).1 h
  simp only [mag10, roundHalfUp, TVal.units]
  have hd : 0 < degree := by simp [degree]
  refine Nat.le_of_lt_succ ((Nat.div_lt_iff_lt_mul (by omega)).2 ?_)
  omega

theorem sentMagnitude_le (w : Word32) : sentMagnitude Config.hw w ≤ 990 := by
  simp only [sentMagnitude]
  split
  · exact mag10_le _ ‹_›
  · omega

/-! ### Address and channel (R53, R54), at any width `ADDR_W` and `CHAN_W` -/

theorem addrField_toNat {n : Nat} (a : BitVec n) : (addrField a).toNat = a.toNat % 8 := by
  simp [addrField]

/-- The channel field is `(channel - 1) mod 4` whatever the width (D6). -/
theorem chanField_toNat {n : Nat} (hn : 2 ≤ n) (c : BitVec n) :
    ((chanField c).toNat : ℤ) = ((c.toNat : ℤ) - 1) % 4 := by
  have h4 : 4 ∣ 2 ^ n := pow_dvd_pow 2 hn
  have h1 : (1 : BitVec n).toNat = 1 :=
    (BitVec.toNat_ofNat 1 n).trans (Nat.mod_eq_of_lt (Nat.one_lt_two_pow (by omega)))
  have hp : 1 ≤ 2 ^ n := Nat.one_le_two_pow
  obtain ⟨k, hk⟩ := h4
  simp only [chanField, BitVec.toNat_setWidth, BitVec.toNat_sub, h1]
  rw [Nat.mod_mod_of_dvd _ ⟨k, hk⟩]
  omega

/-! ### Layouts (R51, R52) -/

@[simp] theorem bitWord_getElem (n : Nat) (b : Bool) (i : Nat) (h : i < n) :
    (bitWord n b)[i] = (decide (i = 0) && b) := by
  rcases i with _ | i <;> simp [bitWord]

theorem Frame32.ofWord_word (f : Frame32) : Frame32.ofWord f.word = f := by
  rcases f with ⟨k, b, s, h, t, u, c, a⟩
  simp only [Frame32.ofWord, Frame32.word, Frame32.mk.injEq]
  refine ⟨?_, ?_, ?_, ?_, ?_, ?_, ?_, ?_⟩
  case refine_2 => simp
  case refine_3 => simp
  all_goals
    apply BitVec.eq_of_getLsbD_eq
    intro i hi
    interval_cases i <;> simp

theorem Frame32.word_zero (f : Frame32) : f.word &&& frameZeroMask = 0 := by
  apply BitVec.eq_of_getLsbD_eq
  intro i hi
  interval_cases i <;> simp [Frame32.word, frameZeroMask]

theorem Frame32.word_ofWord (w : Word32) (h : w &&& frameZeroMask = 0) : (Frame32.ofWord w).word = w := by
  have z (i : Nat) (hi : frameZeroMask.getLsbD i = true) : w.getLsbD i = false := by
    have := congrArg (·.getLsbD i) h
    simpa [hi] using this
  have z3 := z 3 (by decide)
  have z4 := z 4 (by decide)
  have z5 := z 5 (by decide)
  have z20 := z 20 (by decide)
  have z22 := z 22 (by decide)
  apply BitVec.eq_of_getLsbD_eq
  intro i hi
  interval_cases i <;> simp_all [Frame32.word, Frame32.ofWord]

theorem Reading.ofWord_word (r : Reading) : Reading.ofWord r.word = r := by
  rcases r with ⟨a, c, t, l⟩
  simp only [Reading.ofWord, Reading.word, Reading.mk.injEq]
  refine ⟨?_, ?_, ?_, ?_⟩
  case refine_4 => simp
  all_goals
    apply BitVec.eq_of_getLsbD_eq
    intro i hi
    interval_cases i <;> simp

theorem Reading.word_ofWord (w : Word49) : (Reading.ofWord w).word = w := by
  apply BitVec.eq_of_getLsbD_eq
  intro i hi
  interval_cases i <;> simp [Reading.word, Reading.ofWord]
end Sys2Proof.Laws
end

