-- ==== Sys2Proof/Laws/State.lean ====
section
/-! SUPPORT. One lemma per field per update of the state, each true by `rfl`, so that no later proof
unfolds a record update. -/

namespace Sys2Proof.Laws

open Sys2Proof.Machine

/-! ### `storeReading` -/

@[simp] theorem storeReading_reading (r : Reading) (s : State) : (storeReading r s).reading = r := rfl
@[simp] theorem storeReading_frame (r : Reading) (s : State) : (storeReading r s).frame = s.frame := rfl
@[simp] theorem storeReading_pin (r : Reading) (s : State) : (storeReading r s).pin = s.pin := rfl
@[simp] theorem storeReading_phase (r : Reading) (s : State) : (storeReading r s).phase = s.phase := rfl
@[simp] theorem storeReading_rep (r : Reading) (s : State) : (storeReading r s).rep = s.rep := rfl
@[simp] theorem storeReading_idx (r : Reading) (s : State) : (storeReading r s).idx = s.idx := rfl
@[simp] theorem storeReading_timer (r : Reading) (s : State) : (storeReading r s).timer = s.timer := rfl
@[simp] theorem storeReading_stim (r : Reading) (s : State) : (storeReading r s).stim = s.stim := rfl
@[simp] theorem storeReading_result (r : Reading) (s : State) : (storeReading r s).result = s.result := rfl
@[simp] theorem storeReading_wave (r : Reading) (s : State) : (storeReading r s).wave = s.wave := rfl

/-! ### `countDown` -/

@[simp] theorem countDown_reading (s : State) : (countDown s).reading = s.reading := rfl
@[simp] theorem countDown_frame (s : State) : (countDown s).frame = s.frame := rfl
@[simp] theorem countDown_pin (s : State) : (countDown s).pin = s.pin := rfl
@[simp] theorem countDown_phase (s : State) : (countDown s).phase = s.phase := rfl
@[simp] theorem countDown_rep (s : State) : (countDown s).rep = s.rep := rfl
@[simp] theorem countDown_idx (s : State) : (countDown s).idx = s.idx := rfl
@[simp] theorem countDown_timer (s : State) : (countDown s).timer = s.timer - 1 := rfl
@[simp] theorem countDown_stim (s : State) : (countDown s).stim = s.stim := rfl
@[simp] theorem countDown_result (s : State) : (countDown s).result = s.result := rfl
@[simp] theorem countDown_wave (s : State) : (countDown s).wave = s.wave := rfl

/-! ### `enter` -/

@[simp] theorem enter_reading (c : Config) (s : State) (q : Position) : (enter c s q).reading = s.reading := rfl
@[simp] theorem enter_frame (c : Config) (s : State) (q : Position) : (enter c s q).frame = s.frame := rfl
@[simp] theorem enter_pin (c : Config) (s : State) (q : Position) : (enter c s q).pin = level q.phase s.frame q.idx := rfl
@[simp] theorem enter_phase (c : Config) (s : State) (q : Position) : (enter c s q).phase = q.phase := rfl
@[simp] theorem enter_rep (c : Config) (s : State) (q : Position) : (enter c s q).rep = q.rep := rfl
@[simp] theorem enter_idx (c : Config) (s : State) (q : Position) : (enter c s q).idx = q.idx := rfl
@[simp] theorem enter_timer (c : Config) (s : State) (q : Position) : (enter c s q).timer = load c q.phase := rfl
@[simp] theorem enter_stim (c : Config) (s : State) (q : Position) : (enter c s q).stim = s.stim := rfl
@[simp] theorem enter_result (c : Config) (s : State) (q : Position) : (enter c s q).result = s.result := rfl
@[simp] theorem enter_wave (c : Config) (s : State) (q : Position) : (enter c s q).wave = s.wave := rfl

/-! ### `startCycle` -/

@[simp] theorem startCycle_reading (c : Config) (s : State) : (startCycle c s).reading = s.reading := rfl
@[simp] theorem startCycle_frame (c : Config) (s : State) : (startCycle c s).frame = encodeFrame c s.reading := rfl
@[simp] theorem startCycle_pin (c : Config) (s : State) : (startCycle c s).pin = false := rfl
@[simp] theorem startCycle_phase (c : Config) (s : State) : (startCycle c s).phase = .preLow := rfl
@[simp] theorem startCycle_rep (c : Config) (s : State) : (startCycle c s).rep = false := rfl
@[simp] theorem startCycle_idx (c : Config) (s : State) : (startCycle c s).idx = 0 := rfl
@[simp] theorem startCycle_timer (c : Config) (s : State) : (startCycle c s).timer = load c .preLow := rfl
@[simp] theorem startCycle_stim (c : Config) (s : State) : (startCycle c s).stim = s.stim := rfl
@[simp] theorem startCycle_result (c : Config) (s : State) : (startCycle c s).result = s.result := rfl
@[simp] theorem startCycle_wave (c : Config) (s : State) : (startCycle c s).wave = s.wave := rfl

/-! ### `resetRegs` -/

@[simp] theorem resetRegs_reading (c : Config) (s : State) : (resetRegs c s).reading = ⟨c.resetAddress.setWidth _, c.resetChannel.setWidth _, c.resetTemperature, c.resetLowbat⟩ := rfl
/-- At the machine's own widths the reset Reading is that of `State.reset` (R34). -/
theorem resetRegs_hw_reading (s : State) : (resetRegs Config.hw s).reading = State.reset.reading := rfl
@[simp] theorem resetRegs_frame (c : Config) (s : State) : (resetRegs c s).frame = 0 := rfl
@[simp] theorem resetRegs_pin (c : Config) (s : State) : (resetRegs c s).pin = false := rfl
@[simp] theorem resetRegs_phase (c : Config) (s : State) : (resetRegs c s).phase = .idle := rfl
@[simp] theorem resetRegs_rep (c : Config) (s : State) : (resetRegs c s).rep = false := rfl
@[simp] theorem resetRegs_idx (c : Config) (s : State) : (resetRegs c s).idx = 0 := rfl
@[simp] theorem resetRegs_timer (c : Config) (s : State) : (resetRegs c s).timer = 0 := rfl
@[simp] theorem resetRegs_stim (c : Config) (s : State) : (resetRegs c s).stim = s.stim := rfl
@[simp] theorem resetRegs_result (c : Config) (s : State) : (resetRegs c s).result = s.result := rfl
@[simp] theorem resetRegs_wave (c : Config) (s : State) : (resetRegs c s).wave = s.wave := rfl

/-! ### `give` -/

@[simp] theorem give_reading (v : Result) (s : State) : (give v s).reading = s.reading := rfl
@[simp] theorem give_frame (v : Result) (s : State) : (give v s).frame = s.frame := rfl
@[simp] theorem give_pin (v : Result) (s : State) : (give v s).pin = s.pin := rfl
@[simp] theorem give_phase (v : Result) (s : State) : (give v s).phase = s.phase := rfl
@[simp] theorem give_rep (v : Result) (s : State) : (give v s).rep = s.rep := rfl
@[simp] theorem give_idx (v : Result) (s : State) : (give v s).idx = s.idx := rfl
@[simp] theorem give_timer (v : Result) (s : State) : (give v s).timer = s.timer := rfl
@[simp] theorem give_stim (v : Result) (s : State) : (give v s).stim = s.stim := rfl
@[simp] theorem give_result (v : Result) (s : State) : (give v s).result = v := rfl
@[simp] theorem give_wave (v : Result) (s : State) : (give v s).wave = s.wave := rfl

/-! ### `send` -/

@[simp] theorem send_reading (l : List Seg) (s : State) : (send l s).reading = s.reading := rfl
@[simp] theorem send_frame (l : List Seg) (s : State) : (send l s).frame = s.frame := rfl
@[simp] theorem send_pin (l : List Seg) (s : State) : (send l s).pin = s.pin := rfl
@[simp] theorem send_phase (l : List Seg) (s : State) : (send l s).phase = s.phase := rfl
@[simp] theorem send_rep (l : List Seg) (s : State) : (send l s).rep = s.rep := rfl
@[simp] theorem send_idx (l : List Seg) (s : State) : (send l s).idx = s.idx := rfl
@[simp] theorem send_timer (l : List Seg) (s : State) : (send l s).timer = s.timer := rfl
@[simp] theorem send_stim (l : List Seg) (s : State) : (send l s).stim = s.stim := rfl
@[simp] theorem send_result (l : List Seg) (s : State) : (send l s).result = s.result := rfl
@[simp] theorem send_wave (l : List Seg) (s : State) : (send l s).wave = s.wave ++ l := rfl

/-! ### `fetched` -/

@[simp] theorem fetched_reading (s : State) : (s.fetched).reading = s.reading := rfl
@[simp] theorem fetched_frame (s : State) : (s.fetched).frame = s.frame := rfl
@[simp] theorem fetched_pin (s : State) : (s.fetched).pin = s.pin := rfl
@[simp] theorem fetched_phase (s : State) : (s.fetched).phase = s.phase := rfl
@[simp] theorem fetched_rep (s : State) : (s.fetched).rep = s.rep := rfl
@[simp] theorem fetched_idx (s : State) : (s.fetched).idx = s.idx := rfl
@[simp] theorem fetched_timer (s : State) : (s.fetched).timer = s.timer := rfl
@[simp] theorem fetched_stim (s : State) : (s.fetched).stim = s.stim.tail := rfl
@[simp] theorem fetched_result (s : State) : (s.fetched).result = s.result := rfl
@[simp] theorem fetched_wave (s : State) : (s.fetched).wave = s.wave := rfl

end Sys2Proof.Laws
end

