-- ==== Sys2Proof/Laws/Ops.lean ====
section
/-! SUPPORT. What each shared operation can do, said once: the advance, the request, the phase step, and
the fetch. -/

namespace Sys2Proof.Laws

open Sys2Proof.Machine

/-! ### `BUSY` -/

@[simp] theorem busy_eq_true (s : State) : s.busy = true ↔ s.phase ≠ .idle := by simp [State.busy]

@[simp] theorem busy_eq_false (s : State) : s.busy = false ↔ s.phase = .idle := by simp [State.busy]

/-! ### The advance (R117) -/

theorem advance_of_idle {c : Config} {s : State} (h : s.phase = .idle) : advance c s = s := by
  simp [advance, h]

theorem advance_of_timer {c : Config} {s : State} (h : s.phase ≠ .idle) (ht : s.timer ≠ 0) :
    advance c s = countDown s := by
  rw [advance, if_neg h, if_pos ht]

theorem advance_of_end {c : Config} {s : State} (h : s.phase ≠ .idle) (ht : s.timer = 0) :
    advance c s = enter c s (nextPosition s.phase s.rep s.idx) := by
  rw [advance, if_neg h, if_neg (not_not.2 ht)]

/-- Everything an advance can do. -/
theorem advance_cases (c : Config) (s : State) :
    (s.phase = .idle ∧ advance c s = s) ∨
    (s.phase ≠ .idle ∧ s.timer ≠ 0 ∧ advance c s = countDown s) ∨
    (s.phase ≠ .idle ∧ s.timer = 0 ∧ advance c s = enter c s (nextPosition s.phase s.rep s.idx)) := by
  by_cases h : s.phase = .idle
  · exact .inl ⟨h, advance_of_idle h⟩
  · by_cases ht : s.timer = 0
    · exact .inr (.inr ⟨h, ht, advance_of_end h ht⟩)
    · exact .inr (.inl ⟨h, ht, advance_of_timer h ht⟩)

@[simp] theorem advance_reading (c : Config) (s : State) : (advance c s).reading = s.reading := by
  rcases advance_cases c s with ⟨_, e⟩ | ⟨_, _, e⟩ | ⟨_, _, e⟩ <;> simp [e]

@[simp] theorem advance_frame (c : Config) (s : State) : (advance c s).frame = s.frame := by
  rcases advance_cases c s with ⟨_, e⟩ | ⟨_, _, e⟩ | ⟨_, _, e⟩ <;> simp [e]

@[simp] theorem advance_stim (c : Config) (s : State) : (advance c s).stim = s.stim := by
  rcases advance_cases c s with ⟨_, e⟩ | ⟨_, _, e⟩ | ⟨_, _, e⟩ <;> simp [e]

@[simp] theorem advance_result (c : Config) (s : State) : (advance c s).result = s.result := by
  rcases advance_cases c s with ⟨_, e⟩ | ⟨_, _, e⟩ | ⟨_, _, e⟩ <;> simp [e]

@[simp] theorem advance_wave (c : Config) (s : State) : (advance c s).wave = s.wave := by
  rcases advance_cases c s with ⟨_, e⟩ | ⟨_, _, e⟩ | ⟨_, _, e⟩ <;> simp [e]

/-- The advance does not look at the stimulus. -/
theorem advance_with_stim (c : Config) (s : State) (l : List Event) :
    advance c { s with stim := l } = { advance c s with stim := l } := by
  by_cases h : s.phase = .idle
  · rw [advance_of_idle h, advance_of_idle (s := { s with stim := l }) h]
  · by_cases ht : s.timer = 0
    · rw [advance_of_end h ht, advance_of_end (s := { s with stim := l }) h ht]
      rfl
    · rw [advance_of_timer h ht, advance_of_timer (s := { s with stim := l }) h ht]
      rfl

/-! ### Requests and phases (R140, R50) -/

theorem request_of_idle {c : Config} {s : State} (h : s.phase = .idle) (act : State → State) :
    request c s act = act s := by
  simp [request, h, State.busy]

theorem request_of_busy {c : Config} {s : State} (h : s.phase ≠ .idle) (act : State → State) :
    request c s act = advance c s := by
  simp [request, h, State.busy]

theorem runPhase_selected {c : Config} {p : Phase} {s : State} (h : s.phase = p) :
    runPhase c p s = advance c s := by
  simp [runPhase, h]

theorem runPhase_other {c : Config} {p : Phase} {s : State} (h : s.phase ≠ p) : runPhase c p s = s := by
  simp [runPhase, h]

/-! ### The timer's load at the default tick (R28) -/

theorem load_hw (p : Phase) (h : p ≠ .idle) : (load Config.hw p).toNat = dur p - 1 := by
  cases p <;> simp_all [load, dur] <;> decide

theorem dur_pos (p : Phase) (h : p ≠ .idle) : 0 < dur p := by
  cases p <;> simp_all [dur] <;> decide

/-! ### The fetch (R63) -/

@[simp] theorem fetch_nil {s : State} (h : s.stim = []) : s.fetch = .nop := by
  simp [State.fetch, h, Ports.instr, Ports.quiet, hostInstr]

@[simp] theorem fetch_edge {s : State} {p : Ports} {l : List Event} (h : s.stim = .edge p :: l) :
    s.fetch = p.instr := by
  simp [State.fetch, h]

@[simp] theorem fetch_eval {s : State} {i : Instr} {l : List Event} (h : s.stim = .eval i :: l) :
    s.fetch = i := by
  simp [State.fetch, h]

/-- The ports that stand for a host operation select it. -/
theorem hostPorts_instr {i : Instr} {p : Ports} (h : hostPorts i = some p) : p.instr = i := by
  cases i <;> simp [hostPorts] at h <;> subst h <;> rfl

end Sys2Proof.Laws
end

