-- ==== Sys2Proof/Laws/Exec.lean ====
section
/-! SUPPORT. What each arm of `exec` answers, and what a step is: the lemmas that later proofs cite
instead of unfolding `exec` and `step`. -/

namespace Sys2Proof.Laws

open Sys2Proof.Machine

@[simp] theorem exec_reset (s : State) : exec .reset s = .next (resetRegs Config.hw s) := rfl
@[simp] theorem exec_nop (s : State) : exec .nop s = .next (request Config.hw s id) := rfl
@[simp] theorem exec_write (r : Reading) (s : State) :
    exec (.write r) s = .next (request Config.hw s (storeReading r)) := rfl
@[simp] theorem exec_trigger (s : State) :
    exec .trigger s = .next (request Config.hw s (startCycle Config.hw)) := rfl
@[simp] theorem exec_writeTrigger (r : Reading) (s : State) :
    exec (.writeTrigger r) s =
      .next (request Config.hw s fun s => storeReading r (startCycle Config.hw s)) := rfl
@[simp] theorem exec_checksum (d : Word32) (s : State) :
    exec (.checksum d) s = .next (give (.byte (checksum d)) s) := rfl
@[simp] theorem exec_encode (s : State) :
    exec .encode s = .next (give (.frame (encodeFrame Config.hw s.reading)) s) := rfl
/-- Every phase is one edge of the sequencer in that phase. -/
@[simp] theorem exec_phase (p : Phase) (s : State) :
    exec p.instr s = .next (runPhase Config.hw p s) := by cases p <;> rfl
@[simp] theorem exec_bit0 (s : State) : exec .bit0 s = .next (send (symSegs false) s) := rfl
@[simp] theorem exec_bit1 (s : State) : exec .bit1 s = .next (send (symSegs true) s) := rfl
@[simp] theorem exec_preamble (s : State) : exec .preamble s = .next (send preambleSegs s) := rfl
@[simp] theorem exec_sync (s : State) : exec .sync s = .next (send syncSegs s) := rfl
@[simp] theorem exec_data (s : State) : exec .data s = .next (send (dataSegs s.frame) s) := rfl
@[simp] theorem exec_txframe (s : State) : exec .txframe s = .next (send (txframeSegs s.frame) s) := rfl
@[simp] theorem exec_txcycle (s : State) : exec .txcycle s = .next (send (txcycleSegs s.frame) s) := rfl
@[simp] theorem exec_frame32 (f : Frame32) (s : State) :
    exec (.frame32 f) s = .next (give (.frame f.word) s) := rfl
@[simp] theorem exec_reading (r : Reading) (s : State) :
    exec (.reading r) s = .next (give (.reading r.word) s) := rfl

/-- An operation that is a phase is that phase's operation. -/
theorem instr_of_phase {i : Instr} {p : Phase} (h : i.phase? = some p) : i = p.instr := by
  cases i <;> simp [Instr.phase?] at h <;> subst h <;> rfl

/-- Everything an operation can do to a state. -/
inductive Move : Instr → State → State → Prop where
  /-- The registers are reset. -/
  | reset (s) : Move .reset s (resetRegs Config.hw s)
  /-- A host operation other than `RESET` in `BUSY`, or a selected phase: the sequencer advances. -/
  | advance (i s) (h : i.phase? = some s.phase ∨ s.phase ≠ .idle) : Move i s (advance Config.hw s)
  /-- An accepted write. -/
  | write (r s) (h : s.phase = .idle) : Move (.write r) s (storeReading r s)
  /-- An accepted trigger. -/
  | trigger (s) (h : s.phase = .idle) : Move .trigger s (startCycle Config.hw s)
  /-- Both at one edge. -/
  | writeTrigger (r s) (h : s.phase = .idle) :
    Move (.writeTrigger r) s (storeReading r (startCycle Config.hw s))
  /-- `NOP` in `IDLE`, or a phase that is not selected. -/
  | stay (i s) (h : i = .nop ∧ s.phase = .idle ∨ ∃ p, i.phase? = some p ∧ p ≠ s.phase) : Move i s s
  /-- A pure function or a data format gives a value. -/
  | give (i v s) (h : i.phase? = none) (hh : hostPorts i = none) : Move i s (give v s)
  /-- A symbol or a composite sends segments. -/
  | send (i l s) (h : i.phase? = none) (hh : hostPorts i = none) : Move i s (send l s)

/-- An operation's answer is a next state, and one of the moves. -/
theorem exec_move (i : Instr) (s : State) : ∃ t, exec i s = .next t ∧ Move i s t := by
  cases hp : i.phase? with
  | some p =>
    obtain rfl := instr_of_phase hp
    refine ⟨_, exec_phase p s, ?_⟩
    by_cases e : s.phase = p
    · rw [runPhase_selected e]
      exact .advance _ _ (.inl (e ▸ hp))
    · rw [runPhase_other e]
      exact .stay _ _ (.inr ⟨p, hp, fun h => e h.symm⟩)
  | none =>
    by_cases h : s.phase = .idle
    · cases i with
      | reset => exact ⟨_, rfl, .reset s⟩
      | nop => exact ⟨_, by rw [exec_nop, request_of_idle h]; rfl, .stay _ _ (.inl ⟨rfl, h⟩)⟩
      | write r => exact ⟨_, by rw [exec_write, request_of_idle h], .write r s h⟩
      | trigger => exact ⟨_, by rw [exec_trigger, request_of_idle h], .trigger s h⟩
      | writeTrigger r => exact ⟨_, by rw [exec_writeTrigger, request_of_idle h], .writeTrigger r s h⟩
      | _ => first
        | exact ⟨_, rfl, .give _ _ _ rfl rfl⟩
        | exact ⟨_, rfl, .send _ _ _ rfl rfl⟩
        | simp [Instr.phase?] at hp
    · cases i with
      | reset => exact ⟨_, rfl, .reset s⟩
      | nop => exact ⟨_, by rw [exec_nop, request_of_busy h], .advance _ _ (.inr h)⟩
      | write r => exact ⟨_, by rw [exec_write, request_of_busy h], .advance _ _ (.inr h)⟩
      | trigger => exact ⟨_, by rw [exec_trigger, request_of_busy h], .advance _ _ (.inr h)⟩
      | writeTrigger r => exact ⟨_, by rw [exec_writeTrigger, request_of_busy h], .advance _ _ (.inr h)⟩
      | _ => first
        | exact ⟨_, rfl, .give _ _ _ rfl rfl⟩
        | exact ⟨_, rfl, .send _ _ _ rfl rfl⟩
        | simp [Instr.phase?] at hp

/-- A step fetches and runs. -/
theorem step_eq (s : State) : step s = exec s.fetch s.fetched := rfl

end Sys2Proof.Laws
end

