-- ==== Sys2Proof/Laws/PerInstr.lean ====
section
/-! SUPPORT. Per-instruction families: one lemma per constructor of `Instr`. -/

namespace Sys2Proof.Laws.EncodedFits

/-- The word of an operation fits its format's width (`30_encoding.md` rule R50's fixed lengths). -/
def Statement (i : Instr) : Prop := ∀ c, encode i = some c → c.word < 2 ^ c.fmt.width

theorem hostCode_fits (n : Nat) (r : Word49) (h : n < 2 ^ 8) :
    (hostCode n r).word < 2 ^ (hostCode n r).fmt.width := by
  have := r.isLt
  simp only [hostCode, Format.width]
  omega

theorem fits_of_eq {i : Instr} {k : Code} (e : encode i = some k) (h : k.word < 2 ^ k.fmt.width) :
    Statement i := by
  intro c hc
  obtain rfl := Option.some.inj (e.symm.trans hc)
  exact h

theorem fits_of_none {i : Instr} (e : encode i = none) : Statement i := by
  intro c hc
  simp [e] at hc

theorem reset : Statement .reset := fits_of_eq rfl (hostCode_fits _ _ (by decide))
theorem nop : Statement .nop := fits_of_eq rfl (hostCode_fits _ _ (by decide))
theorem write (r : Reading) : Statement (.write r) := fits_of_eq rfl (hostCode_fits _ _ (by decide))
theorem trigger : Statement .trigger := fits_of_eq rfl (hostCode_fits _ _ (by decide))
theorem writeTrigger (r : Reading) : Statement (.writeTrigger r) := fits_of_eq rfl (hostCode_fits _ _ (by decide))
theorem checksum (d : Word32) : Statement (.checksum d) := fits_of_none rfl
theorem encode : Statement .encode := fits_of_none rfl
theorem idle : Statement .idle := fits_of_eq rfl (by decide)
theorem preLow : Statement .preLow := fits_of_eq rfl (by decide)
theorem preHigh : Statement .preHigh := fits_of_eq rfl (by decide)
theorem preGap : Statement .preGap := fits_of_eq rfl (by decide)
theorem syncLow1 : Statement .syncLow1 := fits_of_eq rfl (by decide)
theorem syncHigh : Statement .syncHigh := fits_of_eq rfl (by decide)
theorem syncLow2 : Statement .syncLow2 := fits_of_eq rfl (by decide)
theorem bitFirst : Statement .bitFirst := fits_of_eq rfl (by decide)
theorem bitSecond : Statement .bitSecond := fits_of_eq rfl (by decide)
theorem pause : Statement .pause := fits_of_eq rfl (by decide)
theorem bit0 : Statement .bit0 := fits_of_eq rfl (by decide)
theorem bit1 : Statement .bit1 := fits_of_eq rfl (by decide)
theorem preamble : Statement .preamble := fits_of_none rfl
theorem sync : Statement .sync := fits_of_none rfl
theorem data : Statement .data := fits_of_none rfl
theorem txframe : Statement .txframe := fits_of_none rfl
theorem txcycle : Statement .txcycle := fits_of_none rfl
theorem frame32 (f : Frame32) : Statement (.frame32 f) := fits_of_eq rfl f.word.isLt
theorem reading (r : Reading) : Statement (.reading r) := fits_of_eq rfl r.word.isLt

end Sys2Proof.Laws.EncodedFits
end

