-- ==== Sys2Proof/Tests/Slice0.lean ====
section
/-! SUPPORT. Small tests, with the expected values taken from the spec (`95_test_vectors.md` and the
worked examples of the rules), and for each statement with hypotheses a witness that meets them. -/

namespace Sys2Proof.Tests

open Sys2Proof Sys2Proof.Machine

/-! ### Helpers -/

/-- The next state of an outcome. -/
def nextOf : Host.Outcome State Fault Refusal → Option State
  | .next t => some t
  | .fault _ => none
  | .refused _ => none

/-- A state at a position, with a frame and the Reading of vector S2. -/
def stateAt (p : Phase) (r : Bool) (i : BitVec 5) (timer : BitVec 17) (pin : Bool) (f : Word32) : State :=
  { State.reset with
    reading := ⟨4, 1, 0x41A80000, false⟩, phase := p, rep := r, idx := i, timer := timer, pin := pin, frame := f }

/-- A state in `IDLE` with a Reading. -/
def idleWith (r : Reading) : State := { State.reset with reading := r }

/-- The frame `ENCODE` gives for a Reading. -/
def encoded (r : Reading) : Option Result := (nextOf (exec .encode (idleWith r))).map State.result

/-- The value `CHECKSUM` gives. -/
def summed (d : Word32) : Option Result := (nextOf (exec (.checksum d) State.reset)).map State.result

/-- The segments that an operation sends. -/
def sent (i : Instr) (f : Word32) : List Seg :=
  ((nextOf (exec i { State.reset with frame := f })).map State.wave).getD []

/-- Ports with a trigger. -/
def trig : Ports := { Ports.quiet with trigger := true }

/-- Ports with a write of a Reading. -/
def wr (r : Reading) : Ports := { Ports.quiet with wrValid := true, wr := r }

/-- Ports with a reset. -/
def rstPorts : Ports := { Ports.quiet with rst := true }

/-! ### Well-formed terms -/

/-- EN2's frame is well-formed (R66). -/
theorem test_wf_accepts_frame : Instr.wf (.frame32 ⟨0x77, false, true, 0, 5, 3, 0, 4⟩) = true := by decide

/-- R66 (b): a tens digit over 9 is refused (the checksum is right). -/
theorem test_wf_refuses_tens :
    (let f : Frame32 := ⟨0x0A, false, false, 10, 0, 0, 0, 0⟩
     f.checksumOk = true ∧ Instr.wf (.frame32 f) = false) := by decide

/-- R66 (b): a units digit over 9 is refused (the checksum is right). -/
theorem test_wf_refuses_units :
    (let f : Frame32 := ⟨0xA0, false, false, 0, 10, 0, 0, 0⟩
     f.checksumOk = true ∧ Instr.wf (.frame32 f) = false) := by decide

/-- R66 (b): a tenths digit over 9 is refused (the checksum is right). -/
theorem test_wf_refuses_tenths :
    (let f : Frame32 := ⟨0x0A, false, false, 0, 0, 10, 0, 0⟩
     f.checksumOk = true ∧ Instr.wf (.frame32 f) = false) := by decide

/-- CK10: magnitude 999 is not encodable, though its digits and its checksum are right. -/
theorem test_wf_refuses_magnitude :
    (let f : Frame32 := ⟨0x0B, true, true, 9, 9, 9, 3, 7⟩
     f.digitsOk = true ∧ f.checksumOk = true ∧ Instr.wf (.frame32 f) = false) := by decide

/-- R66 (d): a wrong checksum is refused. -/
theorem test_wf_refuses_checksum : Instr.wf (.frame32 ⟨0x78, false, true, 0, 5, 3, 0, 4⟩) = false := by decide

/-- R10: `TICK_US` 1, 5 and 25 are configurations; 0, 2, 50 are refused. -/
theorem test_config_wf :
    (({ tickUs := 1 } : Config).wf && ({ tickUs := 5 } : Config).wf && ({ tickUs := 25 } : Config).wf) = true ∧
    (({ tickUs := 0 } : Config).wf || ({ tickUs := 2 } : Config).wf || ({ tickUs := 50 } : Config).wf) = false := by
  decide

/-! ### Decoding -/

/-- The HOSTCMD rows of the table in R63; program P1's `WRITE` word. -/
theorem test_decode_host :
    decode ⟨.hostcmd, 0b100⟩ = .ok .reset ∧ decode ⟨.hostcmd, 0b101⟩ = .ok .reset ∧
    decode ⟨.hostcmd, 0b000⟩ = .ok .nop ∧
    decode ⟨.hostcmd, 0b001 + 0x041A80000010400⟩ = .ok (.write ⟨4, 1, 0x41A80000, false⟩) ∧
    decode ⟨.hostcmd, 0b010⟩ = .ok .trigger ∧
    decode ⟨.hostcmd, 0b011 + 0x041A80000010400⟩ = .ok (.writeTrigger ⟨4, 1, 0x41A80000, false⟩) := by
  decide

/-- The ten codes of R25. -/
theorem test_decode_phase :
    [0, 1, 2, 3, 4, 5, 6, 7, 8, 9].map (fun w => (decode ⟨.phase, w⟩).toOption) =
      [some .idle, some .preLow, some .preHigh, some .preGap, some .syncLow1, some .syncHigh, some .syncLow2,
       some .bitFirst, some .bitSecond, some .pause] := by decide

/-- R61. -/
theorem test_decode_symbol : decode ⟨.symbol, 0⟩ = .ok .bit0 ∧ decode ⟨.symbol, 1⟩ = .ok .bit1 := by decide

/-- EN11's frame `0xC1A99087`, field by field. -/
theorem test_decode_frame32 :
    decode ⟨.frame32, 0b11000001_1_0_1_0_1001_1001_0000_10_000_111⟩ =
      .ok (.frame32 ⟨0xC1, true, true, 9, 9, 0, 2, 7⟩) := by decide

/-- P1's READING word `0x041A800000104`, and one with the battery bit. -/
theorem test_decode_reading :
    decode ⟨.reading, 0x041A800000104⟩ = .ok (.reading ⟨4, 1, 0x41A80000, false⟩) ∧
    decode ⟨.reading, 0b1_00000000000000000000000000000000_00000011_00001100⟩ =
      .ok (.reading ⟨12, 3, 0, true⟩) := by decide

/-- R65, R59, R50: reserved and over-wide words are rejected by name. -/
theorem test_decode_rejects :
    decode ⟨.phase, 10⟩ = .error (.reservedPhase 10) ∧ decode ⟨.phase, 15⟩ = .error (.reservedPhase 15) ∧
    decode ⟨.phase, 16⟩ = .error (.tooWide .phase 16) ∧ decode ⟨.symbol, 2⟩ = .error (.tooWide .symbol 2) ∧
    decode ⟨.frame32, 0x00400000⟩ = .error (.reservedFrameBits 0x00400000) ∧
    decode ⟨.frame32, 0x00000008⟩ = .error (.reservedFrameBits 0x00000008) ∧
    decode ⟨.hostcmd, 0b1000⟩ = .error (.hostPadding 0b1000) := by decide

/-- The same words through the table's door, and run as the first step after reset. -/
theorem test_table_words :
    decodeTableWord 3 1 = some (.write ⟨0, 0, 0, false⟩) ∧ decodeTableWord 4 7 = some .bitFirst ∧
    decodeTableWord 8 4 = some .reset ∧ decodeTableWord 8 9 = some .pause ∧
    decodeTableWord 32 0x16021004 = some (.frame32 ⟨0x16, false, false, 2, 1, 0, 0, 4⟩) ∧
    (nextOf (step (State.reset.withFetchWord 8 2))).map State.phase = some .preLow ∧
    (nextOf (step (State.reset.withFetchWord 4 1))).map State.phase = some .preHigh ∧
    (nextOf (step (State.reset.withFetchWord 1 1))).map State.wave = some [⟨true, 1450⟩, ⟨false, 1475⟩] := by
  decide

/-! ### Host operations (95_test_vectors.md part 5) -/

/-- HO1 and HO13: reset in mid-cycle. -/
theorem test_reset :
    nextOf (exec .reset (stateAt .bitFirst false 2 700 true 0x16021004)) = some State.reset := by decide

/-- HO2, and a `NOP` in `BUSY` (HO8). -/
theorem test_nop :
    nextOf (exec .nop State.reset) = some State.reset ∧
    nextOf (exec .nop (stateAt .preLow false 0 0 false 0x16021004)) =
      some (stateAt .preHigh false 0 1749 true 0x16021004) := by decide

/-- HO3 and HO6. -/
theorem test_write :
    nextOf (exec (.write ⟨4, 1, 0x41A80000, false⟩) State.reset) = some (idleWith ⟨4, 1, 0x41A80000, false⟩) ∧
    nextOf (exec (.write ⟨5, 2, 0x41200000, true⟩) (stateAt .preLow false 0 249 false 0x16021004)) =
      some (stateAt .preLow false 0 248 false 0x16021004) := by decide

/-- HO4 and HO7. -/
theorem test_trigger :
    nextOf (exec .trigger (idleWith ⟨4, 1, 0x41A80000, false⟩)) =
      some (stateAt .preLow false 0 1249 false 0x16021004) ∧
    nextOf (exec .trigger (stateAt .preLow false 0 249 false 0x16021004)) =
      some (stateAt .preLow false 0 248 false 0x16021004) := by decide

/-- HO5: the old Reading is encoded. -/
theorem test_write_trigger :
    nextOf (exec (.writeTrigger ⟨4, 1, 0xC0A9999A, false⟩) (idleWith ⟨4, 1, 0x41A80000, false⟩)) =
      some { stateAt .preLow false 0 1249 false 0x16021004 with reading := ⟨4, 1, 0xC0A9999A, false⟩ } := by
  decide

/-- HO12: both requests at the edge that ends the cycle, through a step. -/
theorem test_requests_at_the_last_edge :
    nextOf (step { stateAt .pause true 0 0 false 0x16021004 with
      stim := [.edge { trig with wrValid := true, wr := ⟨5, 2, 0x41200000, true⟩ }] }) =
      some (stateAt .idle false 0 0 false 0x16021004) := by decide

/-! ### The pure functions -/

/-- CK2, CK4, CK5, CK6, CK7, CK9, CK11, CK15. -/
theorem test_checksum :
    [0x00021004, 0x00FFFFFF, 0x00FFFF01, 0x00FF0100, 0x000000FF, 0x00A890C7, 0x12345678, 0x00FF00FF].map summed =
      [0x16, 0xFF, 0x00, 0x01, 0xFF, 0x00, 0x03, 0xFF].map (fun b => some (.byte b)) := by decide

/-- EN1, EN2, EN7, EN8, EN12, EN13, EN16, EN24: sign, clamp, halves, minus zero, NaN, wrapping channel. -/
theorem test_encode :
    [encoded ⟨4, 1, 0x41A80000, false⟩, encoded ⟨4, 1, 0xC0A9999A, false⟩, encoded ⟨4, 1, 0xC2C60000, false⟩,
     encoded ⟨7, 4, 0xC2B20000, true⟩, encoded ⟨4, 1, 0x3E800000, false⟩, encoded ⟨4, 1, 0xBD23D70A, false⟩,
     encoded ⟨3, 2, 0x80000000, false⟩, encoded ⟨4, 1, 0x7FC00000, false⟩] =
    [0x16021004, 0x77205304, 0x04000004, 0x00A890C7, 0x07000304, 0x24200004, 0x43000043, 0x04000004].map
      (fun f => some (.frame f)) := by decide

/-- U1 and U3: the other readings, under their parameters (EN33, EN21, EN34). -/
theorem test_encode_alternatives :
    encodeFrame { signOnClamp := true } ⟨4, 1, 0xC2F00000, false⟩ = 0x24200004 ∧
    encodeFrame { round10 := .binary32Product } ⟨5, 2, 0x42C5E666, false⟩ = 0xDE099045 ∧
    encodeFrame { round10 := .binary32Product } ⟨4, 1, 0x3EB33333, false⟩ = 0x08000404 := by decide

/-! ### The phases (W5, HO8 to HO15) -/

/-- R111: `IDLE` stays. -/
theorem test_idle : nextOf (exec .idle State.reset) = some State.reset := by decide

/-- HO8 and the countdown of W5. -/
theorem test_preLow :
    nextOf (exec .preLow (stateAt .preLow false 0 0 false 0x16021004)) =
      some (stateAt .preHigh false 0 1749 true 0x16021004) ∧
    nextOf (exec .preLow (stateAt .preLow false 0 1249 false 0x16021004)) =
      some (stateAt .preLow false 0 1248 false 0x16021004) := by decide

/-- HO9, and pulse 10, which goes on to pulse 11. -/
theorem test_preHigh :
    nextOf (exec .preHigh (stateAt .preHigh false 11 0 true 0x16021004)) =
      some (stateAt .preGap false 0 2999 false 0x16021004) ∧
    nextOf (exec .preHigh (stateAt .preHigh false 10 0 true 0x16021004)) =
      some (stateAt .preLow false 11 1249 false 0x16021004) := by decide

/-- W5, `k` = 38999 and 39000. -/
theorem test_preGap :
    nextOf (exec .preGap (stateAt .preGap false 0 0 false 0x16021004)) =
      some (stateAt .syncLow1 false 0 4199 false 0x16021004) := by decide

/-- W5, `k` = 43200. -/
theorem test_syncLow1 :
    nextOf (exec .syncLow1 (stateAt .syncLow1 false 0 0 false 0x16021004)) =
      some (stateAt .syncHigh false 0 5699 true 0x16021004) := by decide

/-- W5, `k` = 48900. -/
theorem test_syncHigh :
    nextOf (exec .syncHigh (stateAt .syncHigh false 0 0 true 0x16021004)) =
      some (stateAt .syncLow2 false 0 5199 false 0x16021004) := by decide

/-- HO14; and a frame whose bit 0 is 1 (EN16's). -/
theorem test_syncLow2 :
    nextOf (exec .syncLow2 (stateAt .syncLow2 false 0 0 false 0x77205304)) =
      some (stateAt .bitFirst false 0 1449 false 0x77205304) ∧
    nextOf (exec .syncLow2 (stateAt .syncLow2 true 0 0 false 0x43000043)) =
      some (stateAt .bitFirst true 0 1449 true 0x43000043) := by decide

/-- HO15. -/
theorem test_bitFirst :
    nextOf (exec .bitFirst (stateAt .bitFirst false 2 0 true 0x77205304)) =
      some (stateAt .bitSecond false 2 1474 false 0x77205304) := by decide

/-- HO10, and W5's `k` = 59950. -/
theorem test_bitSecond :
    nextOf (exec .bitSecond (stateAt .bitSecond false 31 0 true 0x16021004)) =
      some (stateAt .pause false 0 99999 false 0x16021004) ∧
    nextOf (exec .bitSecond (stateAt .bitSecond false 1 0 true 0x16021004)) =
      some (stateAt .bitFirst false 2 1449 true 0x16021004) := by decide

/-- HO11, and W5's `k` = 495400. -/
theorem test_pause :
    nextOf (exec .pause (stateAt .pause false 0 0 false 0x16021004)) =
      some (stateAt .preLow true 0 1249 false 0x16021004) ∧
    nextOf (exec .pause (stateAt .pause true 0 0 false 0x16021004)) =
      some (stateAt .idle false 0 0 false 0x16021004) := by decide

/-! ### Symbols, composites and formats (W1, W2, W6) -/

/-- R114's example: 1 then 0 on the pin. -/
theorem test_symbols :
    runLengths (sent .bit1 0 ++ sent .bit0 0) = [⟨true, 1450⟩, ⟨false, 2925⟩, ⟨true, 1475⟩] := by decide

/-- W6: segments and durations of the composites. -/
theorem test_composites :
    [.preamble, .sync, .data, .txframe, .txcycle].map
      (fun i => ((sent i 0x16021004).length, totalDur (sent i 0x16021004))) =
    [(25, 39000), (3, 15100), (64, 93600), (92, 147700), (186, 495400)] := by decide +kernel

/-- W1: the sync in the middle of the run-length form; W2: the cycle has 161 runs. -/
theorem test_run_lengths :
    ((runLengths (sent .txframe 0x16021004)).drop 24).take 8 =
      [⟨false, 7200⟩, ⟨true, 5700⟩, ⟨false, 6650⟩, ⟨true, 1475⟩, ⟨false, 1450⟩, ⟨true, 2925⟩, ⟨false, 2925⟩,
       ⟨true, 1475⟩] ∧
    (runLengths (sent .txcycle 0x16021004)).length = 161 := by decide +kernel

/-- R112's example: the pulses rise at 1250 and 34250 and fall at 3000 and 36000. -/
theorem test_preamble :
    [1249, 1250, 2999, 3000, 34249, 34250, 35999, 36000].map (levelAt (sent .preamble 0)) =
      [false, true, true, false, false, true, true, false] := by decide

/-- R113's example: with the preamble before it, the sync HIGH rises at 43200 and falls at 48900. -/
theorem test_sync :
    [43199, 43200, 48899, 48900].map (levelAt (sent .preamble 0 ++ sent .sync 0)) =
      [false, true, true, false] := by decide

/-- R115's example: `Sym(0), Sym(0), Sym(1), Sym(0)` come first. -/
theorem test_data :
    (sent .data 0x16021004).take 8 =
      [⟨false, 1450⟩, ⟨true, 1475⟩, ⟨false, 1450⟩, ⟨true, 1475⟩, ⟨true, 1450⟩, ⟨false, 1475⟩, ⟨false, 1450⟩,
       ⟨true, 1475⟩] := by decide

/-- S2's frame from its fields, and P1's READING word. -/
theorem test_formats :
    (nextOf (exec (.frame32 ⟨0x16, false, false, 2, 1, 0, 0, 4⟩) State.reset)).map State.result =
      some (.frame 0x16021004) ∧
    (nextOf (exec (.reading ⟨4, 1, 0x41A80000, false⟩) State.reset)).map State.result =
      some (.reading 0x041A800000104) := by decide

/-- W5: the tick numbers of some positions. -/
theorem test_cycleTick :
    [stateAt .preLow false 0 1249 false 0, stateAt .preHigh false 0 0 true 0, stateAt .bitFirst false 2 1449 true 0,
     stateAt .preLow true 0 1249 false 0, stateAt .pause true 0 0 false 0].map (cycleTick Config.hw) =
    [0, 2999, 59950, 247700, 495399] := by decide

/-- R147: the first two trigger edges of the host's cadence. -/
theorem test_cadence : [1, 2].map (cadenceEdge Config.hw) = [30000000, 60000000] := by decide

/-! ### Witnesses: the hypotheses of each statement can be met -/

theorem witness_EncodeThenDecodeGivesItBack :
    ∃ i k, encode i = some k ∧ i = .frame32 ⟨0x16, false, false, 2, 1, 0, 0, 4⟩ := ⟨_, _, rfl, rfl⟩

theorem witness_DecodeThenEncodeGivesTheWordBack :
    ∃ (k : Code) (i : Instr), k.fmt ≠ .hostcmd ∧ decode k = .ok i :=
  ⟨⟨.frame32, 0x16021004⟩, .frame32 ⟨0x16, false, false, 2, 1, 0, 0, 4⟩, by decide, by decide⟩

theorem witness_ReservedWordsAreRejected :
    (10 ≤ 10 ∧ 10 ≤ 15 ∧ 10 ≤ 15 ∧ 15 ≤ 15) ∧ (0x00000008#32 &&& 0x00500038 ≠ 0) ∧
    (0x00400000#32 &&& 0x00500038 ≠ 0) ∧ 2 ^ Format.frame32.width ≤ 0x100000000 ∧
    2 ^ Format.phase.width ≤ 16 := by decide

theorem witness_StepRunsTheFetchedOperation :
    (∃ s : State, s.stim = []) ∧ (∃ (s : State) (p : Ports) (l : List Event), s.stim = .edge p :: l) ∧
    (∃ (s : State) (i : Instr) (l : List Event), s.stim = .eval i :: l) :=
  ⟨⟨State.reset, rfl⟩, ⟨{ State.reset with stim := [.edge trig] }, _, _, rfl⟩,
    ⟨{ State.reset with stim := [.eval .encode] }, _, _, rfl⟩⟩

theorem witness_PlacedTableWordIsRun :
    (∃ n w i, decodeTableWord n w = some i ∧ i.phase? = none) ∧
    (∃ n w i p, decodeTableWord n w = some i ∧ i.phase? = some p) :=
  ⟨⟨3, 2, .trigger, by decide, rfl⟩, ⟨4, 9, .pause, .pause, by decide, rfl⟩⟩

theorem witness_EdgeActsOnRequestsInOrderOfPrecedence :
    (∃ (s : State) (p : Ports), s.stim = [.edge p] ∧ p.rst = true) ∧
    (∃ (s : State) (p : Ports), s.stim = [.edge p] ∧ p.rst = false ∧ s.phase = .idle ∧ p.trigger = true) ∧
    (∃ (s : State) (p : Ports), s.stim = [.edge p] ∧ p.rst = false ∧ s.phase ≠ .idle) :=
  ⟨⟨{ State.reset with stim := [.edge rstPorts] }, rstPorts, by decide⟩,
    ⟨{ State.reset with stim := [.edge trig] }, trig, by decide⟩,
    ⟨{ stateAt .pause true 0 0 false 0 with stim := [.edge trig] }, trig, by decide⟩⟩

theorem witness_RequestsAreMaskedExactlyInBusy :
    (∃ (s : State) (p q : Ports), s.phase ≠ .idle ∧ p.rst = false ∧ q.rst = false ∧ p ≠ q) ∧
    (∃ (s : State) (p : Ports), s.phase = .idle ∧ p.rst = false ∧ p.wrValid = true ∧ p.trigger = true) ∧
    (∃ p : Ports, p.rst = true) :=
  ⟨⟨stateAt .pause true 0 0 false 0, trig, Ports.quiet, by decide⟩,
    ⟨State.reset, { trig with wrValid := true }, by decide⟩, ⟨rstPorts, rfl⟩⟩

theorem witness_FirstEdgeAfterResetAcceptsRequests :
    (∃ p : Ports, p.rst = false ∧ p.wrValid = true ∧ p.trigger = true) ∧
    (∃ p : Ports, p.rst = false ∧ p.wrValid = false ∧ p.trigger = false) :=
  ⟨⟨{ trig with wrValid := true }, by decide⟩, ⟨Ports.quiet, by decide⟩⟩

theorem witness_NopWaitsInIdleAndAdvancesInBusy :
    (∃ s : State, s.phase ≠ .idle) ∧
    (∃ (s : State) (ps : List Ports) (l : List Event), s.phase = .idle ∧
      (∀ q ∈ ps, q.rst = false ∧ q.trigger = false ∧ q.wrValid = false) ∧ s.stim = edges ps ++ l) :=
  ⟨⟨stateAt .pause true 0 0 false 0, by decide⟩,
    ⟨{ State.reset with stim := edges [.quiet, .quiet] }, [.quiet, .quiet], [], by decide⟩⟩

/-- The hypothesis of the statements on an accepted write, trigger, and both. -/
theorem witness_idle_state :
    ∃ s : State, s.phase = .idle ∧ s.reading = ⟨4, 1, 0x41A80000, false⟩ :=
  ⟨idleWith ⟨4, 1, 0x41A80000, false⟩, by decide⟩

theorem witness_ChecksumByRangesOfTheSum :
    [0x000000FF, 0x000001FF, 0x0000FFFF, 0x0001FFFF, 0x0002FFFF, 0x00FFFFFF].map byteSum =
      [255, 256, 510, 511, 512, 765] := by decide

theorem witness_ChecksumDetectsEverySingleBitChange :
    0 < 24 ∧ 23 < 24 ∧ (24 ≤ 24 ∧ 24 < 32) ∧ (24 ≤ 31 ∧ 31 < 32) := by decide

theorem witness_TemperatureWordHasTheFormulasValue :
    (∃ w : Word32, (w.extractLsb' 23 8).toNat = 255 ∧ (w.extractLsb' 0 23).toNat ≠ 0) ∧
    (∃ w : Word32, (w.extractLsb' 23 8).toNat = 255 ∧ (w.extractLsb' 0 23).toNat = 0) ∧
    (∃ w : Word32, (w.extractLsb' 23 8).toNat ≠ 255 ∧ (w.extractLsb' 23 8).toNat ≠ 0) ∧
    (∃ w : Word32, (w.extractLsb' 23 8).toNat = 0 ∧ (w.extractLsb' 0 23).toNat ≠ 0) :=
  ⟨⟨0x7FC00000, by decide⟩, ⟨0xFF800000, by decide⟩, ⟨0x41A80000, by decide⟩, ⟨0x00000001, by decide⟩⟩

/-- Two words, on the two sides of 98.95. -/
theorem witness_MagnitudeRoundsTheExactProductHalfUp :
    (∃ q, tempValue 0x42C5E666 = some q ∧ -99 < q ∧ q < 99 ∧ |q| < 9895 / 100) ∧
    (∃ q, tempValue 0x42C5E667 = some q ∧ -99 < q ∧ q < 99 ∧ (9895 : ℚ) / 100 ≤ |q|) := by
  constructor
  · refine ⟨1 * (2 ^ 23 + ((0x45E666 : Nat) : ℚ)) * 2 ^ ((133 : ℤ) - 150), rfl, ?_⟩
    norm_num [abs_of_pos]
  · refine ⟨1 * (2 ^ 23 + ((0x45E667 : Nat) : ℚ)) * 2 ^ ((133 : ℤ) - 150), rfl, ?_⟩
    norm_num [abs_of_pos]

theorem witness_InRangeTemperatureSendsSignAndDigits :
    ∃ r : Reading, (tval .binary32 r.temperature).inRange = true ∧ (tval .binary32 r.temperature).neg = true :=
  ⟨⟨4, 1, 0xC0A9999A, false⟩, by decide⟩

theorem witness_OutOfRangeTemperatureSendsPlusZero :
    (∃ r : Reading, (tval .binary32 r.temperature).inRange = false) ∧
    (∃ w : Word32, (tval .binary32 w).inRange = true ∧ w.getLsbD 31 = false ∧ w.toNat = 0x42C5FFFF) ∧
    (tval .binary32 0x7FC00000 = .nan ∧ tval .binary32 0xFF800000 = .inf true ∧
      tval .binary32 0x7F800000 = .inf false) :=
  ⟨⟨⟨4, 1, 0xC2F00000, false⟩, by decide⟩, ⟨0x42C5FFFF, by decide⟩, by decide⟩

theorem witness_PhaseCountsDown : ∃ s : State, s.phase ≠ .idle ∧ s.timer ≠ 0 :=
  ⟨stateAt .pause false 0 99999 false 0, by decide⟩

theorem witness_PreamblePhasesEnd :
    (∃ s : State, s.timer = 0 ∧ s.phase = .preLow) ∧
    (∃ s : State, s.timer = 0 ∧ s.phase = .preHigh ∧ s.idx.toNat < 11 ∧ s.idx = 10) ∧
    (∃ s : State, s.timer = 0 ∧ s.phase = .preHigh ∧ s.idx = 11) ∧
    (∃ s : State, s.timer = 0 ∧ s.phase = .preGap ∧ s.idx = 0) :=
  ⟨⟨stateAt .preLow false 3 0 false 0, by decide⟩, ⟨stateAt .preHigh false 10 0 true 0, by decide⟩,
    ⟨stateAt .preHigh true 11 0 true 0, by decide⟩, ⟨stateAt .preGap false 0 0 false 0, by decide⟩⟩

theorem witness_SyncPhasesEnd :
    (∃ s : State, s.timer = 0 ∧ s.idx = 0 ∧ s.phase = .syncLow1) ∧
    (∃ s : State, s.timer = 0 ∧ s.idx = 0 ∧ s.phase = .syncHigh) ∧
    (∃ s : State, s.timer = 0 ∧ s.idx = 0 ∧ s.phase = .syncLow2) :=
  ⟨⟨stateAt .syncLow1 false 0 0 false 0, by decide⟩, ⟨stateAt .syncHigh false 0 0 true 0, by decide⟩,
    ⟨stateAt .syncLow2 true 0 0 false 0, by decide⟩⟩

theorem witness_DataPhasesEnd :
    (∃ s : State, s.timer = 0 ∧ s.phase = .bitFirst ∧ s.idx = 31) ∧
    (∃ s : State, s.timer = 0 ∧ s.phase = .bitSecond ∧ s.idx.toNat < 31 ∧ s.idx = 30) ∧
    (∃ s : State, s.timer = 0 ∧ s.phase = .bitSecond ∧ s.idx = 31) :=
  ⟨⟨stateAt .bitFirst false 31 0 false 0, by decide⟩, ⟨stateAt .bitSecond false 30 0 true 0, by decide⟩,
    ⟨stateAt .bitSecond true 31 0 true 0, by decide⟩⟩

theorem witness_PauseEndsAndIdleStays :
    (∃ s : State, s.phase = .pause ∧ s.timer = 0 ∧ s.idx = 0 ∧ s.rep = false) ∧
    (∃ s : State, s.phase = .pause ∧ s.timer = 0 ∧ s.idx = 0 ∧ s.rep = true) ∧ (∃ s : State, s.phase = .idle) :=
  ⟨⟨stateAt .pause false 0 0 false 0, by decide⟩, ⟨stateAt .pause true 0 0 false 0, by decide⟩,
    ⟨State.reset, rfl⟩⟩

theorem witness_PhaseRegisterSelectsThePhase :
    (∃ (s : State) (p : Ports) (l : List Event), s.phase ≠ .idle ∧ p.rst = false ∧ s.stim = .edge p :: l) ∧
    (∃ (s : State) (p : Phase), p ≠ s.phase) :=
  ⟨⟨{ stateAt .preGap false 0 5 false 0 with stim := [.edge trig] }, trig, [], by decide⟩,
    ⟨State.reset, .pause, by decide⟩⟩

theorem witness_SegmentLastsItsDuration :
    ∃ (c : Config) (s : State), c.wf = true ∧ s.phase ≠ .idle ∧ s.timer = load c s.phase ∧
      1749 < dur s.phase / c.tickUs :=
  ⟨Config.hw, stateAt .preHigh false 0 1749 true 0, by decide⟩

theorem witness_TickMayBeOneFiveOrTwentyFive :
    ∃ c : Config, c.wf = true ∧ c.tickUs = 25 ∧ Phase.pause ≠ .idle := ⟨{ tickUs := 25 }, by decide⟩

theorem witness_PreambleIsTwelvePulsesAndAGap : (11 < 12) ∧ (1249 < 3000) ∧ (2999 < 3000) := by decide

theorem witness_SyncIsLowHighLow :
    (∃ t, levelAt (preambleSegs ++ syncSegs) t = true ∧ 36000 ≤ t) ∧ (43200 ≤ 43200 ∧ 48899 < 48900) :=
  ⟨⟨43200, by decide⟩, by decide⟩

/-- The bit number of the statements on `DATA`, on reading back and on the table. -/
theorem witness_bit_number : 0 < 32 ∧ 31 < 32 ∧ 1449 < 1450 := by decide

theorem witness_CompositesSentInOrderAreTheFrame :
    ∃ (s : State) (l : List Event), s.stim = .eval .preamble :: .eval .sync :: .eval .data :: l :=
  ⟨{ State.reset with stim := [.eval .preamble, .eval .sync, .eval .data, .eval .encode] }, _, rfl⟩

/-- A state in the middle of a cycle that meets the invariant, and its step. -/
theorem witness_StepKeepsThePositionGood :
    ∃ s t : State, s.PositionOk Config.hw ∧ step s = .next t ∧ s.phase ≠ .idle :=
  ⟨stateAt .preHigh false 11 0 true 0, stateAt .preGap false 0 2999 false 0, by decide, rfl, by decide⟩

theorem witness_StepKeepsTheFrameEncoded :
    ∃ s t : State, s.FrameOk Config.hw ∧ step s = .next t ∧ t.frame ≠ s.frame :=
  ⟨{ idleWith ⟨4, 1, 0x41A80000, false⟩ with stim := [.edge trig] }, stateAt .preLow false 0 1249 false 0x16021004,
    ⟨⟨0, 1, 0, false⟩, by decide⟩, rfl, by decide⟩

theorem witness_OnlyAcceptedRequestsAndResetWriteReadingAndFrame :
    (∃ s t : State, step s = .next t ∧ t.reading ≠ s.reading) ∧
    (∃ s t : State, step s = .next t ∧ t.frame ≠ s.frame) :=
  ⟨⟨{ State.reset with stim := [.edge (wr ⟨4, 1, 0x41A80000, false⟩)] }, _, rfl, by decide⟩,
    ⟨{ idleWith ⟨4, 1, 0x41A80000, false⟩ with stim := [.edge trig] }, _, rfl, by decide⟩⟩

theorem witness_IdleIsLeftByTriggerAndEnteredByResetOrTheLastPause :
    (∃ s t : State, s.PositionOk Config.hw ∧ step s = .next t ∧ s.phase = .idle ∧ t.phase ≠ .idle) ∧
    (∃ s t : State, s.PositionOk Config.hw ∧ step s = .next t ∧ s.phase ≠ .idle ∧ t.phase = .idle) :=
  ⟨⟨{ State.reset with stim := [.edge trig] }, _, by decide, rfl, by decide⟩,
    ⟨stateAt .pause true 0 0 false 0, _, by decide, rfl, by decide⟩⟩

theorem witness_AcceptedTriggerSendsTheTrace :
    ∃ (s : State) (p : Ports) (ps : List Ports) (l : List Event), s.phase = .idle ∧ p.rst = false ∧
      p.trigger = true ∧ (∀ q ∈ ps, q.rst = false) ∧ ps.length = 495399 ∧ s.stim = edges (p :: ps) ++ l :=
  ⟨{ State.reset with stim := edges (trig :: List.replicate 495399 trig) ++ [] }, trig,
    List.replicate 495399 trig, [], rfl, rfl, rfl, fun _ h => List.eq_of_mem_replicate h ▸ rfl,
    List.length_replicate, rfl⟩

theorem witness_CycleEndsAfterItsDuration :
    ∃ (s : State) (p : Ports) (ps : List Ports) (l : List Event), s.PositionOk Config.hw ∧ s.phase = .idle ∧
      p.rst = false ∧ p.trigger = true ∧ (∀ q ∈ ps, q.rst = false) ∧ ps.length = 495400 ∧
      s.stim = edges (p :: ps) ++ l :=
  ⟨{ State.reset with stim := edges (trig :: List.replicate 495400 trig) ++ [] }, trig,
    List.replicate 495400 trig, [], by simp [State.PositionOk, State.reset, level], rfl, rfl, rfl,
    fun _ h => List.eq_of_mem_replicate h ▸ rfl, List.length_replicate, rfl⟩

theorem witness_BusyRunsToCompletion :
    ∃ (s : State) (ps : List Ports) (l : List Event), s.PositionOk Config.hw ∧ s.phase ≠ .idle ∧
      (∀ q ∈ ps, q.rst = false) ∧ ps.length = ticksLeft Config.hw s ∧ s.stim = edges ps ++ l :=
  ⟨{ stateAt .pause true 0 1 false 0 with stim := edges [trig, trig] ++ [.edge rstPorts] }, [trig, trig],
    [.edge rstPorts], by decide⟩

theorem witness_RequestsDoNotDisturbACycle :
    ∃ (s : State) (ps qs : List Ports), (∀ q ∈ ps, q.rst = false) ∧ (∀ q ∈ qs, q.rst = false) ∧
      ps.length = qs.length ∧ s.PositionOk Config.hw ∧ ps.length ≤ ticksLeft Config.hw s ∧ ps ≠ qs :=
  ⟨stateAt .pause true 0 1 false 0, [trig, wr ⟨5, 2, 0, true⟩], [.quiet, .quiet], by decide⟩

theorem witness_HeldRequestIsTakenAfterTheCycle :
    (∃ (s : State) (ps : List Ports) (p : Ports), s.PositionOk Config.hw ∧ s.phase ≠ .idle ∧
      (∀ q ∈ ps, q.rst = false) ∧ ps.length = ticksLeft Config.hw s ∧ p.rst = false ∧
      s.stim = edges (ps ++ [p]) ∧ p.trigger = false ∧ p.wrValid = true) ∧
    (∃ (s : State) (ps : List Ports) (p : Ports), s.PositionOk Config.hw ∧ s.phase ≠ .idle ∧
      (∀ q ∈ ps, q.rst = false) ∧ ps.length = ticksLeft Config.hw s ∧ p.rst = false ∧
      s.stim = edges (ps ++ [p]) ∧ p.trigger = true ∧ p.wrValid = false) :=
  ⟨⟨{ stateAt .pause true 0 0 false 0 with stim := edges [wr ⟨5, 2, 0, true⟩, wr ⟨5, 2, 0, true⟩] },
      [wr ⟨5, 2, 0, true⟩], wr ⟨5, 2, 0, true⟩, by decide⟩,
    ⟨{ stateAt .pause true 0 0 false 0 with stim := edges [trig, trig] }, [trig], trig, by decide⟩⟩

theorem witness_ScriptLinesWaitAndWrite : ∃ s : State, s.PositionOk Config.hw ∧ s.phase ≠ .idle :=
  ⟨stateAt .syncHigh true 0 100 true 0, by decide⟩

theorem witness_RunLengthsAreTheSameWaveform :
    ∃ (l : List Seg) (g h : Seg), (runLengths l)[0]? = some g ∧ (runLengths l)[0 + 1]? = some h :=
  ⟨symSegs true, _, _, rfl, rfl⟩

theorem witness_FrameCanBeReadBackFromThePin :
    ∃ f g : Word32, runLengths (txframeSegs f) = runLengths (txframeSegs g) := ⟨0x16021004, _, rfl⟩

theorem witness_HighPulseWidthsOfAFrame :
    ∃ g ∈ runLengths (txframeSegs 0x16021004), g.level = true :=
  ⟨⟨true, 1750⟩, by decide +kernel⟩

theorem witness_TraceIsTheTable : (0 < 93 ∧ 92 < 93) ∧ (0 < 12 ∧ 11 < 12) ∧ (0 < 32 ∧ 31 < 32) := by decide

end Sys2Proof.Tests
end

section
/-! SUPPORT. The allowed tick rates (R10) and the timer's load at each of them (R28). -/

namespace Sys2Proof.Proofs

open Sys2Proof.Machine

/-! ### The allowed configurations -/

theorem wf_iff_dvd_durations (c : Config) :
    c.wf = true ↔ 0 < c.tickUs ∧ ∀ d ∈ Proto.durations, c.tickUs ∣ d := by
  simp only [Config.wf, Bool.and_eq_true, List.all_eq_true, decide_eq_true_eq, Nat.dvd_iff_mod_eq_zero]

/-- 25 is the greatest common divisor of the durations: it divides each, and it is the difference of
the two halves of a bit. -/
theorem dvd_durations_iff_dvd_twentyFive (t : Nat) : (∀ d ∈ Proto.durations, t ∣ d) ↔ t ∣ 25 := by
  constructor
  · intro h
    have hfirst : t ∣ Proto.tBitFirst := h _ (by simp [Proto.durations])
    have hsecond : t ∣ Proto.tBitSecond := h _ (by simp [Proto.durations])
    exact Nat.dvd_sub hsecond hfirst
  · intro h d hd
    have hall : ∀ d ∈ Proto.durations, 25 ∣ d := by decide
    exact h.trans (hall d hd)

theorem wf_iff_tickUs_dvd_twentyFive (c : Config) : c.wf = true ↔ c.tickUs ∣ 25 := by
  rw [wf_iff_dvd_durations, dvd_durations_iff_dvd_twentyFive]
  exact and_iff_right_of_imp fun h => Nat.pos_of_dvd_of_pos h (by decide)

theorem dvd_twentyFive_iff (t : Nat) : t ∣ 25 ↔ t = 1 ∨ t = 5 ∨ t = 25 := by
  have hdivisors : Nat.divisors 25 = {1, 5, 25} := by decide
  simpa [hdivisors] using (Nat.mem_divisors (n := t) (m := 25)).symm

/-! ### The load of the timer -/

theorem dur_mem_durations {p : Phase} (hp : p ≠ .idle) : dur p ∈ Proto.durations := by
  cases p <;> simp_all [dur, Proto.durations]

theorem dur_le_pause (p : Phase) : dur p ≤ Proto.tPause := by cases p <;> decide

theorem tickUs_dvd_dur {c : Config} (hc : c.wf = true) {p : Phase} (hp : p ≠ .idle) : c.tickUs ∣ dur p :=
  ((wf_iff_dvd_durations c).1 hc).2 _ (dur_mem_durations hp)

/-- The longest segment, the pause, has fewer than `2 ^ 17` ticks at any rate: no load is cut off. -/
theorem load_toNat (c : Config) {p : Phase} (hp : p ≠ .idle) : (load c p).toNat = dur p / c.tickUs - 1 := by
  have hticks : dur p / c.tickUs ≤ 100000 := (Nat.div_le_self _ _).trans (dur_le_pause p)
  rw [load, if_neg hp, BitVec.toNat_ofNat, Nat.mod_eq_of_lt (by omega)]

theorem load_toNat_add_one {c : Config} (hc : c.wf = true) {p : Phase} (hp : p ≠ .idle) :
    (load c p).toNat + 1 = dur p / c.tickUs := by
  have htick : 0 < c.tickUs := ((wf_iff_dvd_durations c).1 hc).1
  have hticks : 0 < dur p / c.tickUs :=
    Nat.div_pos (Nat.le_of_dvd (Laws.dur_pos p hp) (tickUs_dvd_dur hc hp)) htick
  rw [load_toNat c hp, Nat.sub_add_cancel hticks]

/-- Settles O35: the durations' greatest common divisor is 25, so an allowed `TICK_US` is one of its three
divisors; and the number of ticks of a segment is positive and fits 17 bits. -/
theorem tickMayBeOneFiveOrTwentyFive : Obligations.TickMayBeOneFiveOrTwentyFive := by
  intro c
  constructor
  · exact (wf_iff_tickUs_dvd_twentyFive c).trans (dvd_twentyFive_iff c.tickUs)
  · intro hc p hp
    exact ⟨load_toNat_add_one hc hp, Nat.mod_eq_zero_of_dvd (tickUs_dvd_dur hc hp)⟩

end Sys2Proof.Proofs
end

section
/-! SUPPORT. The storage registers (R20, R21): the reset values (R34), and which operations write the
Reading and `FRAME`. -/

namespace Sys2Proof.Proofs

open Sys2Proof.Machine Sys2Proof.Laws

/-! ### The reset values -/

/-- The reset word of `FRAME` is itself a frame of the encoder: the one of the reset Reading (R34). -/
theorem encodeFrame_reset_reading : encodeFrame Config.hw State.reset.reading = 0 := by decide

/-- Settles O10: the reset state and the meaning of `RESET` are the table's values, and the reset Reading's
frame is 0. -/
theorem resetGivesTheTablesValues : Obligations.ResetGivesTheTablesValues := by
  refine ⟨by decide, fun s => ?_, rfl, encodeFrame_reset_reading⟩
  rw [exec_reset]
  rfl

/-! ### Who writes the Reading and `FRAME` -/

/-- What a step can do: one of the moves of the fetched operation. -/
theorem step_move {s t : State} (h : step s = .next t) : Move s.fetch s.fetched t := by
  obtain ⟨u, hu, hmove⟩ := exec_move s.fetch s.fetched
  rw [step_eq, hu] at h
  cases h
  exact hmove

/-- The Reading after an operation: kept, reset, or the one of an accepted write. -/
theorem move_reading_cases {i : Instr} {s t : State} (h : Move i s t) :
    t.reading = s.reading ∨ i = .reset ∨
      (s.phase = .idle ∧ (i = .write t.reading ∨ i = .writeTrigger t.reading)) := by
  cases h with
  | reset => exact .inr (.inl rfl)
  | write r _ hidle => exact .inr (.inr ⟨hidle, .inl rfl⟩)
  | writeTrigger r _ hidle => exact .inr (.inr ⟨hidle, .inr rfl⟩)
  | advance => exact .inl (advance_reading _ _)
  | trigger => exact .inl (startCycle_reading _ _)
  | stay => exact .inl rfl
  | give _ v => exact .inl (give_reading v _)
  | send _ l => exact .inl (send_reading l _)

/-- `FRAME` after an operation: kept, reset to 0, or the encoding that an accepted trigger samples. -/
theorem move_frame_cases {i : Instr} {s t : State} (h : Move i s t) :
    t.frame = s.frame ∨ (i = .reset ∧ t.frame = 0) ∨
      (s.phase = .idle ∧ (i = .trigger ∨ ∃ r, i = .writeTrigger r) ∧
        t.frame = encodeFrame Config.hw s.reading) := by
  cases h with
  | reset => exact .inr (.inl ⟨rfl, rfl⟩)
  | trigger _ hidle => exact .inr (.inr ⟨hidle, .inl rfl, startCycle_frame _ _⟩)
  | writeTrigger r _ hidle => exact .inr (.inr ⟨hidle, .inr ⟨r, rfl⟩, startCycle_frame _ _⟩)
  | advance => exact .inl (advance_frame _ _)
  | write r => exact .inl (storeReading_frame r _)
  | stay => exact .inl rfl
  | give _ v => exact .inl (give_frame v _)
  | send _ l => exact .inl (send_frame l _)

/-- Settles O47: `FRAME` is kept, or is 0, which encodes the reset Reading, or is the encoding of the
Reading before the step. -/
theorem stepKeepsTheFrameEncoded : Obligations.StepKeepsTheFrameEncoded := by
  intro s t hframe hstep
  rcases move_frame_cases (step_move hstep) with hkept | ⟨_, hzero⟩ | ⟨_, _, hsampled⟩
  · obtain ⟨r, hr⟩ := hframe
    exact ⟨r, hkept.trans hr⟩
  · exact ⟨State.reset.reading, hzero.trans encodeFrame_reset_reading.symm⟩
  · exact ⟨s.reading, hsampled⟩

/-- Settles O48, from what an operation leaves in the Reading and in `FRAME`: fetching changes neither, nor
the phase. -/
theorem onlyAcceptedRequestsAndResetWriteReadingAndFrame :
    Obligations.OnlyAcceptedRequestsAndResetWriteReadingAndFrame := by
  intro s t hstep
  have hmove := step_move hstep
  constructor
  · intro hchanged
    exact (move_reading_cases hmove).resolve_left hchanged
  · intro hchanged
    rcases (move_frame_cases hmove).resolve_left hchanged with ⟨hreset, _⟩ | haccepted
    · exact .inl hreset
    · exact .inr haccepted

end Sys2Proof.Proofs
end

section
/-! SUPPORT. The five encodings: the words of the format tables, and where the two data formats FRAME32
(R52) and READING (R51) place each field. -/

namespace Sys2Proof.Proofs

open Sys2Proof.Machine Sys2Proof.Laws

/-! ### Decoding -/

/-- Settles O1, by running the decoder on the fourteen words. -/
theorem writtenWordsDecode : Obligations.WrittenWordsDecode := by
  unfold Obligations.WrittenWordsDecode
  decide

/-! ### FRAME32: reading the fields back gives each field at its place -/

theorem Frame32.word_csum (f : Frame32) : f.word.extractLsb' 24 8 = f.csum :=
  congrArg Frame32.csum (Frame32.ofWord_word f)

theorem Frame32.word_batt (f : Frame32) : f.word.getLsbD 23 = f.batt :=
  congrArg Frame32.batt (Frame32.ofWord_word f)

theorem Frame32.word_sign (f : Frame32) : f.word.getLsbD 21 = f.sign :=
  congrArg Frame32.sign (Frame32.ofWord_word f)

theorem Frame32.word_tens (f : Frame32) : f.word.extractLsb' 16 4 = f.tens :=
  congrArg Frame32.tens (Frame32.ofWord_word f)

theorem Frame32.word_units (f : Frame32) : f.word.extractLsb' 12 4 = f.units :=
  congrArg Frame32.units (Frame32.ofWord_word f)

theorem Frame32.word_tenths (f : Frame32) : f.word.extractLsb' 8 4 = f.tenths :=
  congrArg Frame32.tenths (Frame32.ofWord_word f)

theorem Frame32.word_chan (f : Frame32) : f.word.extractLsb' 6 2 = f.chan :=
  congrArg Frame32.chan (Frame32.ofWord_word f)

theorem Frame32.word_addr (f : Frame32) : f.word.extractLsb' 0 3 = f.addr :=
  congrArg Frame32.addr (Frame32.ofWord_word f)

/-- The bits of a frame that are no field are 0 (R52, R59). -/
theorem Frame32.word_getLsbD_of_zeroMask (f : Frame32) {i : Nat} (hi : frameZeroMask.getLsbD i = true) :
    f.word.getLsbD i = false := by
  have hbit := congrArg (·.getLsbD i) (Frame32.word_zero f)
  simpa [hi] using hbit

theorem Frame32.word_bits_five_to_three (f : Frame32) : f.word.extractLsb' 3 3 = 0 := by
  have hmask : ∀ i < 3, frameZeroMask.getLsbD (3 + i) = true := by decide
  apply BitVec.eq_of_getLsbD_eq
  intro i hi
  simp [Frame32.word_getLsbD_of_zeroMask f (hmask i hi)]

/-- Settles O43: the result is the word of the fields, which holds each field at its place and 0 at the
bits that are no field. -/
theorem frame32PlacesEveryField : Obligations.Frame32PlacesEveryField := by
  intro f s
  exact ⟨f.word, exec_frame32 f s, Frame32.word_csum f, Frame32.word_batt f,
    Frame32.word_getLsbD_of_zeroMask f (by decide), Frame32.word_sign f,
    Frame32.word_getLsbD_of_zeroMask f (by decide), Frame32.word_tens f, Frame32.word_units f,
    Frame32.word_tenths f, Frame32.word_chan f, Frame32.word_bits_five_to_three f, Frame32.word_addr f⟩

/-- Settles O23: the three fields of the encoder's frame, and their values. -/
theorem addressChannelAndBatteryFields : Obligations.AddressChannelAndBatteryFields := by
  intro r
  have haddr : (encodeFrame Config.hw r).extractLsb' 0 3 = addrField r.address := Frame32.word_addr _
  have hchan : (encodeFrame Config.hw r).extractLsb' 6 2 = chanField r.channel := Frame32.word_chan _
  have hbatt : (encodeFrame Config.hw r).getLsbD 23 = r.lowbat := Frame32.word_batt _
  rw [haddr, hchan]
  exact ⟨addrField_toNat r.address, chanField_toNat (by decide) r.channel, hbatt⟩

/-! ### READING -/

/-- Settles O44: reading the word of a Reading back gives the Reading. -/
theorem readingWordPlacesEveryPort : Obligations.ReadingWordPlacesEveryPort := by
  intro r s
  have hback : Reading.ofWord r.word = r := Reading.ofWord_word r
  exact ⟨r.word, exec_reading r s, congrArg Reading.address hback, congrArg Reading.channel hback,
    congrArg Reading.temperature hback, congrArg Reading.lowbat hback⟩

end Sys2Proof.Proofs
end

section
/-! SUPPORT. One clock edge (R69): what it is at given ports, and in `BUSY`, where only `rst` is seen
(R140). -/

namespace Sys2Proof.Proofs

open Sys2Proof.Machine Sys2Proof.Laws

/-- At an edge the step is the host operation that the sampled ports select. -/
theorem step_edge {s : State} {p : Ports} {l : List Event} (h : s.stim = .edge p :: l) :
    step s = exec p.instr { s with stim := l } := by
  rw [step_eq, fetch_edge h, State.fetched, h, List.tail_cons]

/-- In `BUSY` every host operation but `RESET` is the sequencer's advance. -/
theorem exec_instr_of_busy {s : State} {p : Ports} (hbusy : s.phase ≠ .idle) (hrst : p.rst = false) :
    exec p.instr s = .next (advance Config.hw s) := by
  rw [Ports.instr, hrst]
  cases p.trigger <;> cases p.wrValid <;> simp [hostInstr, request_of_busy hbusy]

theorem step_edge_of_busy {s : State} {p : Ports} {l : List Event} (h : s.stim = .edge p :: l)
    (hbusy : s.phase ≠ .idle) (hrst : p.rst = false) :
    step s = .next { advance Config.hw s with stim := l } := by
  rw [step_edge h, exec_instr_of_busy (s := { s with stim := l }) hbusy hrst, advance_with_stim]

/-- Settles O33: in `BUSY` both the edge and the selected phase's operation are the advance; a phase that
is not selected stays. -/
theorem phaseRegisterSelectsThePhase : Obligations.PhaseRegisterSelectsThePhase := by
  constructor
  · intro s p l hbusy hrst h
    rw [step_edge h, exec_instr_of_busy (s := { s with stim := l }) hbusy hrst, exec_phase,
      runPhase_selected (s := { s with stim := l }) rfl]
  · intro s p hother
    rw [exec_phase, runPhase_other hother.symm]

end Sys2Proof.Proofs
end

section
/-! SUPPORT. The advance through a cycle (R116, R117) at every allowed tick rate: it keeps R29's facts,
counts the tick up, and reaches `IDLE` when the edges left in the cycle are used up. -/

namespace Sys2Proof.Proofs

open Sys2Proof.Machine Sys2Proof.Laws

/-! ### R29's facts, split into position, timer and pin -/

/-- The position a state is in. -/
def positionOf (s : State) : Position := ⟨s.phase, s.rep, s.idx⟩

/-- What R29 says of the position alone. -/
def GoodPosition (q : Position) : Prop :=
  (q.phase = .idle → q.rep = false ∧ q.idx = 0) ∧
  (q.phase = .preLow ∨ q.phase = .preHigh → q.idx.toNat ≤ 11) ∧
  (q.phase = .preGap ∨ q.phase = .syncLow1 ∨ q.phase = .syncHigh ∨ q.phase = .syncLow2 ∨
    q.phase = .pause → q.idx = 0)

theorem positionOk_iff (c : Config) (s : State) :
    s.PositionOk c ↔ GoodPosition (positionOf s) ∧ (s.phase = .idle → s.timer = 0) ∧
      (s.phase ≠ .idle → s.timer.toNat < dur s.phase / c.tickUs) ∧ s.pin = level s.phase s.frame s.idx := by
  constructor
  · rintro ⟨hidle, hpreamble, hzero, htimer, hpin⟩
    refine ⟨⟨fun h => ?_, hpreamble, hzero⟩, fun h => ?_, htimer, hpin⟩ <;>
      obtain ⟨hrep, hidx, hload, _⟩ := hidle h
    · exact ⟨hrep, hidx⟩
    · exact hload
  · rintro ⟨⟨hidle, hpreamble, hzero⟩, hload, htimer, hpin⟩
    refine ⟨fun h => ?_, hpreamble, hzero, htimer, hpin⟩
    obtain ⟨hrep, hidx⟩ := hidle h
    exact ⟨hrep, hidx, hload h, by rw [hpin, h, level]⟩

/-! ### The rows of R116 that count -/

theorem nextPosition_preHigh_of_lt (r : Bool) {i : BitVec 5} (hi : i.toNat < 11) :
    nextPosition .preHigh r i = ⟨.preLow, r, i + 1⟩ := if_pos hi

theorem nextPosition_preHigh_last (r : Bool) {i : BitVec 5} (hi : ¬ i.toNat < 11) :
    nextPosition .preHigh r i = ⟨.preGap, r, 0⟩ := if_neg hi

theorem nextPosition_bitSecond_of_lt (r : Bool) {i : BitVec 5} (hi : i.toNat < 31) :
    nextPosition .bitSecond r i = ⟨.bitFirst, r, i + 1⟩ := if_pos hi

theorem nextPosition_bitSecond_last (r : Bool) {i : BitVec 5} (hi : ¬ i.toNat < 31) :
    nextPosition .bitSecond r i = ⟨.pause, r, 0⟩ := if_neg hi

theorem idx_add_one_toNat {i : BitVec 5} (h : i.toNat < 31) : (i + 1).toNat = i.toNat + 1 := by
  bv_omega

/-! ### The advance keeps R29's facts -/

theorem nextPosition_good {q : Position} (hq : GoodPosition q) :
    GoodPosition (nextPosition q.phase q.rep q.idx) := by
  obtain ⟨p, r, i⟩ := q
  obtain ⟨_, hpreamble, _⟩ := hq
  cases p with
  | preHigh =>
    by_cases hi : i.toNat < 11
    · have hpulse : (i + 1).toNat ≤ 11 := (idx_add_one_toNat (by omega)).trans_le hi
      rw [nextPosition_preHigh_of_lt r hi]
      exact ⟨nofun, fun _ => hpulse, by simp⟩
    · simp [nextPosition_preHigh_last r hi, GoodPosition]
  | bitSecond =>
    by_cases hi : i.toNat < 31
    · simp [nextPosition_bitSecond_of_lt r hi, GoodPosition]
    · simp [nextPosition_bitSecond_last r hi, GoodPosition]
  | pause => cases r <;> simp [GoodPosition, nextPosition]
  | _ => simp_all [GoodPosition, nextPosition]

/-- Entry to a good position gives R29's facts: the load is a number of ticks less one, and the pin is the
level of the new position. -/
theorem enter_positionOk {c : Config} (hc : c.wf = true) (s : State) {q : Position} (hq : GoodPosition q) :
    (enter c s q).PositionOk c := by
  refine (positionOk_iff c _).2 ⟨hq, fun h => ?_, fun h => ?_, rfl⟩
  · exact if_pos h
  · have hload := load_toNat_add_one hc (p := q.phase) h
    simp only [enter_timer, enter_phase]
    omega

theorem countDown_timer_toNat {s : State} (ht : s.timer ≠ 0) :
    (countDown s).timer.toNat + 1 = s.timer.toNat := by
  rw [countDown_timer]
  bv_omega

theorem countDown_positionOk {c : Config} {s : State} (hs : s.PositionOk c) (hbusy : s.phase ≠ .idle)
    (ht : s.timer ≠ 0) : (countDown s).PositionOk c := by
  obtain ⟨hgood, _, htimer, hpin⟩ := (positionOk_iff c s).1 hs
  have hless := countDown_timer_toNat ht
  have hbound := htimer hbusy
  exact (positionOk_iff c _).2 ⟨hgood, fun h => absurd h hbusy, fun _ => by rw [countDown_phase]; omega, hpin⟩

theorem advance_positionOk {c : Config} (hc : c.wf = true) {s : State} (hs : s.PositionOk c) :
    (advance c s).PositionOk c := by
  rcases advance_cases c s with ⟨_, e⟩ | ⟨hbusy, ht, e⟩ | ⟨_, _, e⟩ <;> rw [e]
  · exact hs
  · exact countDown_positionOk hs hbusy ht
  · exact enter_positionOk hc s (nextPosition_good ((positionOk_iff c s).1 hs).1)

/-! ### The table of R126: the duration and the start of each segment in microseconds -/

@[simp] theorem dur_preLow : dur .preLow = 1250 := rfl
@[simp] theorem dur_preHigh : dur .preHigh = 1750 := rfl
@[simp] theorem dur_preGap : dur .preGap = 3000 := rfl
@[simp] theorem dur_syncLow1 : dur .syncLow1 = 4200 := rfl
@[simp] theorem dur_syncHigh : dur .syncHigh = 5700 := rfl
@[simp] theorem dur_syncLow2 : dur .syncLow2 = 5200 := rfl
@[simp] theorem dur_bitFirst : dur .bitFirst = 1450 := rfl
@[simp] theorem dur_bitSecond : dur .bitSecond = 1475 := rfl
@[simp] theorem dur_pause : dur .pause = 100000 := rfl

@[simp] theorem segStart_preLow (i : BitVec 5) : segStart .preLow i = 3000 * i.toNat := rfl
@[simp] theorem segStart_preHigh (i : BitVec 5) : segStart .preHigh i = 3000 * i.toNat + 1250 := rfl
@[simp] theorem segStart_preGap (i : BitVec 5) : segStart .preGap i = 36000 := rfl
@[simp] theorem segStart_syncLow1 (i : BitVec 5) : segStart .syncLow1 i = 39000 := rfl
@[simp] theorem segStart_syncHigh (i : BitVec 5) : segStart .syncHigh i = 43200 := rfl
@[simp] theorem segStart_syncLow2 (i : BitVec 5) : segStart .syncLow2 i = 48900 := rfl
@[simp] theorem segStart_bitFirst (i : BitVec 5) : segStart .bitFirst i = 54100 + 2925 * i.toNat := rfl
@[simp] theorem segStart_bitSecond (i : BitVec 5) :
    segStart .bitSecond i = 54100 + 2925 * i.toNat + 1450 := rfl
@[simp] theorem segStart_pause (i : BitVec 5) : segStart .pause i = 147700 := rfl

theorem repetitionUs_eq : repetitionUs = 247700 := rfl

theorem cycleUs_eq : cycleUs = 495400 := rfl

/-- A repetition's segments begin at its start and do not pass its end. -/
theorem segEnd_le_repetitionUs {q : Position} (hq : GoodPosition q) :
    segStart q.phase q.idx + dur q.phase ≤ repetitionUs := by
  obtain ⟨p, r, i⟩ := q
  have hi := i.isLt
  have hrepetition := repetitionUs_eq
  cases p with
  | idle => exact Nat.zero_le _
  | preLow | preHigh =>
    have hpulse : i.toNat ≤ 11 := hq.2.1 (by simp)
    simp only [segStart_preLow, segStart_preHigh, dur_preLow, dur_preHigh]
    omega
  | pause => exact Nat.le_refl repetitionUs
  | bitFirst | bitSecond =>
    simp only [segStart_bitFirst, segStart_bitSecond, dur_bitFirst, dur_bitSecond]
    omega
  | _ => simp [hrepetition]

/-! ### Where a position's segment begins and ends in the cycle -/

/-- Start of a repetition in microseconds from the start of the cycle. -/
def repStartUs (rep : Bool) : Nat := if rep then repetitionUs else 0

@[simp] theorem repStartUs_false : repStartUs false = 0 := rfl

@[simp] theorem repStartUs_true : repStartUs true = 247700 := rfl

/-- Start of a position's segment in microseconds from the start of the cycle. -/
def startUs (q : Position) : Nat := repStartUs q.rep + segStart q.phase q.idx

/-- End of a position's segment. -/
def endUs (q : Position) : Nat := startUs q + dur q.phase

theorem endUs_le_cycleUs {q : Position} (hq : GoodPosition q) : endUs q ≤ cycleUs := by
  have hseg := segEnd_le_repetitionUs hq
  have hrep : repStartUs q.rep ≤ 247700 := by cases q.rep <;> simp
  have hrepetition := repetitionUs_eq
  have hcycle := cycleUs_eq
  simp only [endUs, startUs]
  omega

/-- The next segment begins where this one ends, and the last one ends with the cycle. -/
theorem nextPosition_startUs {q : Position} (hq : GoodPosition q) (hbusy : q.phase ≠ .idle) :
    ((nextPosition q.phase q.rep q.idx).phase = .idle ∧ endUs q = cycleUs) ∨
    ((nextPosition q.phase q.rep q.idx).phase ≠ .idle ∧
      startUs (nextPosition q.phase q.rep q.idx) = endUs q) := by
  obtain ⟨p, r, i⟩ := q
  cases p with
  | idle => exact absurd rfl hbusy
  | preHigh =>
    have hlast : i.toNat ≤ 11 := hq.2.1 (.inr rfl)
    by_cases hi : i.toNat < 11
    · have hnext := idx_add_one_toNat (i := i) (by omega)
      rw [nextPosition_preHigh_of_lt r hi]
      refine .inr ⟨nofun, ?_⟩
      simp only [startUs, endUs, segStart_preLow, segStart_preHigh, dur_preHigh]
      omega
    · rw [nextPosition_preHigh_last r hi]
      refine .inr ⟨nofun, ?_⟩
      simp only [startUs, endUs, segStart_preGap, segStart_preHigh, dur_preHigh]
      omega
  | bitSecond =>
    have hlast := i.isLt
    by_cases hi : i.toNat < 31
    · have hnext := idx_add_one_toNat hi
      rw [nextPosition_bitSecond_of_lt r hi]
      refine .inr ⟨nofun, ?_⟩
      simp only [startUs, endUs, segStart_bitFirst, segStart_bitSecond, dur_bitSecond]
      omega
    · rw [nextPosition_bitSecond_last r hi]
      refine .inr ⟨nofun, ?_⟩
      simp only [startUs, endUs, segStart_pause, segStart_bitSecond, dur_bitSecond]
      omega
  | pause =>
    obtain rfl : i = 0 := hq.2.2 (by simp)
    cases r
    · exact .inr ⟨nofun, rfl⟩
    · exact .inl ⟨rfl, rfl⟩
  | _ =>
    refine .inr ⟨by simp [nextPosition], ?_⟩
    simp [nextPosition, startUs, endUs, Nat.add_assoc]

/-! ### The number of the tick, and the edges left -/

/-- The ticks before a state's tick, the tick itself and those its timer still holds fill the cycle up to
the end of the segment. -/
theorem cycleTick_add_timer {c : Config} (hc : c.wf = true) {s : State} (hs : s.PositionOk c)
    (hbusy : s.phase ≠ .idle) :
    cycleTick c s + s.timer.toNat + 1 = endUs (positionOf s) / c.tickUs := by
  obtain ⟨_, _, htimer, _⟩ := (positionOk_iff c s).1 hs
  have hbound := htimer hbusy
  have hsplit : endUs (positionOf s) / c.tickUs =
      startUs (positionOf s) / c.tickUs + dur s.phase / c.tickUs :=
    Nat.add_div_of_dvd_left (tickUs_dvd_dur hc hbusy)
  have htick : cycleTick c s =
      startUs (positionOf s) / c.tickUs + (dur s.phase / c.tickUs - 1 - s.timer.toNat) := rfl
  omega

theorem cycleTick_lt {c : Config} (hc : c.wf = true) {s : State} (hs : s.PositionOk c)
    (hbusy : s.phase ≠ .idle) : cycleTick c s < cycleUs / c.tickUs := by
  have hend := cycleTick_add_timer hc hs hbusy
  have hle : endUs (positionOf s) / c.tickUs ≤ cycleUs / c.tickUs :=
    Nat.div_le_div_right (endUs_le_cycleUs ((positionOk_iff c s).1 hs).1)
  omega

/-- The first tick of a segment has the number of its start. -/
theorem cycleTick_enter {c : Config} (hc : c.wf = true) (s : State) {q : Position} (hbusy : q.phase ≠ .idle) :
    cycleTick c (enter c s q) = startUs q / c.tickUs := by
  have hload := load_toNat_add_one hc hbusy
  have htick : cycleTick c (enter c s q) =
      startUs q / c.tickUs + (dur q.phase / c.tickUs - 1 - (load c q.phase).toNat) := rfl
  omega

/-- In `BUSY` an advance goes on to the next tick, or it ends the cycle after its last tick. -/
theorem advance_cycleTick {c : Config} (hc : c.wf = true) {s : State} (hs : s.PositionOk c)
    (hbusy : s.phase ≠ .idle) :
    ((advance c s).phase = .idle ∧ cycleTick c s + 1 = cycleUs / c.tickUs) ∨
    ((advance c s).phase ≠ .idle ∧ cycleTick c (advance c s) = cycleTick c s + 1) := by
  have hend := cycleTick_add_timer hc hs hbusy
  by_cases ht : s.timer = 0
  · rw [advance_of_end hbusy ht]
    have hzero : s.timer.toNat = 0 := by rw [ht]; rfl
    rw [hzero] at hend
    rcases nextPosition_startUs ((positionOk_iff c s).1 hs).1 hbusy with ⟨hidle, hlast⟩ | ⟨hnext, hstart⟩
    · exact .inl ⟨hidle, hlast ▸ hend⟩
    · exact .inr ⟨hnext, (cycleTick_enter hc s hnext).trans (hstart ▸ hend.symm)⟩
  · rw [advance_of_timer hbusy ht]
    have hless := countDown_timer_toNat ht
    have hend' := cycleTick_add_timer hc (countDown_positionOk hs hbusy ht) hbusy
    have hsame : positionOf (countDown s) = positionOf s := rfl
    rw [hsame] at hend'
    exact .inr ⟨hbusy, by omega⟩

theorem ticksLeft_eq_zero_iff {c : Config} (hc : c.wf = true) {s : State} (hs : s.PositionOk c) :
    ticksLeft c s = 0 ↔ s.phase = .idle := by
  by_cases hidle : s.phase = .idle
  · simp [ticksLeft, hidle]
  · have hlt := cycleTick_lt hc hs hidle
    rw [ticksLeft, if_neg hidle]
    exact iff_of_false (by omega) hidle

/-- Every advance uses up one of the edges left, as long as there is one. -/
theorem ticksLeft_advance {c : Config} (hc : c.wf = true) {s : State} (hs : s.PositionOk c) :
    ticksLeft c (advance c s) = ticksLeft c s - 1 := by
  by_cases hidle : s.phase = .idle
  · rw [advance_of_idle hidle, ticksLeft, if_pos hidle]
  · rcases advance_cycleTick hc hs hidle with ⟨hend, htick⟩ | ⟨hnext, htick⟩
    · rw [ticksLeft, if_pos hend, ticksLeft, if_neg hidle]
      omega
    · rw [ticksLeft, if_neg hnext, ticksLeft, if_neg hidle]
      omega

/-! ### Many advances -/

theorem advance_iterate_reading (c : Config) (k : Nat) (s : State) :
    ((advance c)^[k] s).reading = s.reading := by
  induction k generalizing s with
  | zero => rfl
  | succ k ih => rw [Function.iterate_succ_apply, ih, advance_reading]

theorem advance_iterate_frame (c : Config) (k : Nat) (s : State) :
    ((advance c)^[k] s).frame = s.frame := by
  induction k generalizing s with
  | zero => rfl
  | succ k ih => rw [Function.iterate_succ_apply, ih, advance_frame]

theorem advance_iterate_with_stim (c : Config) (k : Nat) (s : State) (l : List Event) :
    (advance c)^[k] { s with stim := l } = { (advance c)^[k] s with stim := l } := by
  induction k generalizing s with
  | zero => rfl
  | succ k ih => rw [Function.iterate_succ_apply, Function.iterate_succ_apply, advance_with_stim, ih]

theorem advance_iterate_positionOk {c : Config} (hc : c.wf = true) (k : Nat) {s : State}
    (hs : s.PositionOk c) : ((advance c)^[k] s).PositionOk c := by
  induction k generalizing s with
  | zero => exact hs
  | succ k ih => exact ih (advance_positionOk hc hs)

theorem ticksLeft_advance_iterate {c : Config} (hc : c.wf = true) (k : Nat) {s : State}
    (hs : s.PositionOk c) : ticksLeft c ((advance c)^[k] s) = ticksLeft c s - k := by
  induction k generalizing s with
  | zero => rfl
  | succ k ih =>
    rw [Function.iterate_succ_apply, ih (advance_positionOk hc hs), ticksLeft_advance hc hs]
    omega

/-- The sequencer is in `IDLE` once the edges left in the cycle are used up, and not earlier. -/
theorem advance_iterate_phase_idle_iff {c : Config} (hc : c.wf = true) (k : Nat) {s : State}
    (hs : s.PositionOk c) : ((advance c)^[k] s).phase = .idle ↔ ticksLeft c s ≤ k := by
  rw [← ticksLeft_eq_zero_iff hc (advance_iterate_positionOk hc k hs), ticksLeft_advance_iterate hc k hs]
  omega

end Sys2Proof.Proofs
end

section
/-! SUPPORT. Runs over clock edges within a cycle, and the script lines of R68 that wait for its end. -/

namespace Sys2Proof.Proofs

open Sys2Proof.Machine Sys2Proof.Laws

/-! ### A run within a cycle -/

theorem hw_wf : Config.hw.wf = true := (wf_iff_tickUs_dvd_twentyFive _).2 (one_dvd _)

theorem run_succ_of_step {s t : State} (h : step s = .next t) (k : Nat) :
    Host.Core.run Sys2Proof.core (k + 1) s = Host.Core.run Sys2Proof.core k t := by
  simp [Host.Core.run, Sys2Proof.core, h]

/-- Edges without `rst` advance the sequencer up to the end of the cycle, whatever their requests. -/
theorem run_edges_of_le_ticksLeft (ps : List Ports) (l : List Event) {s : State}
    (hs : s.PositionOk Config.hw) (hrst : ∀ q ∈ ps, q.rst = false)
    (hlen : ps.length ≤ ticksLeft Config.hw s) (hstim : s.stim = edges ps ++ l) :
    Host.Core.run Sys2Proof.core ps.length s = .next { (advance Config.hw)^[ps.length] s with stim := l } := by
  induction ps generalizing s with
  | nil =>
    have hkeep : { s with stim := l } = s := by rw [← show s.stim = l from hstim]
    exact congrArg Host.Outcome.next hkeep.symm
  | cons p ps ih =>
    rw [List.length_cons] at hlen ⊢
    have hbusy : s.phase ≠ .idle := fun h => by
      have hzero := (ticksLeft_eq_zero_iff hw_wf hs).2 h
      omega
    have hstep := step_edge_of_busy (p := p) (l := edges ps ++ l) hstim hbusy (hrst p (by simp))
    have hleft := ticksLeft_advance hw_wf hs
    rw [run_succ_of_step hstep, ih (s := { advance Config.hw s with stim := edges ps ++ l })
      (advance_positionOk hw_wf hs) (fun q hq => hrst q (by simp [hq]))
      (show ps.length ≤ ticksLeft Config.hw (advance Config.hw s) by omega) rfl,
      advance_iterate_with_stim, Function.iterate_succ_apply]

/-! ### Runs as states -/

theorem succ_of_step {s t : State} (h : step s = .next t) : s.succ = t := by
  rw [State.succ, h]

theorem after_of_run {k : Nat} {s t : State} (h : Host.Core.run Sys2Proof.core k s = .next t) :
    State.after k s = t := by
  induction k generalizing s with
  | zero =>
    cases h
    rfl
  | succ k ih =>
    obtain ⟨u, hstep, _⟩ := exec_move s.fetch s.fetched
    have hstep : step s = .next u := hstep
    rw [run_succ_of_step hstep] at h
    rw [State.after, succ_of_step hstep, ih h]

theorem after_succ_last (k : Nat) (s : State) : State.after (k + 1) s = (State.after k s).succ := by
  induction k generalizing s with
  | zero => rfl
  | succ k ih => rw [State.after, ih, State.after]

/-! ### The end of the cycle -/

/-- The state in which the cycle under way has just ended; the state itself if there is none. -/
def cycleEnd (s : State) : State := (advance Config.hw)^[ticksLeft Config.hw s] s

theorem cycleEnd_phase {s : State} (hs : s.PositionOk Config.hw) : (cycleEnd s).phase = .idle :=
  (advance_iterate_phase_idle_iff hw_wf _ hs).2 le_rfl

theorem cycleEnd_reading (s : State) : (cycleEnd s).reading = s.reading := advance_iterate_reading _ _ s

theorem cycleEnd_frame (s : State) : (cycleEnd s).frame = s.frame := advance_iterate_frame _ _ s

/-- Any request but `rst`, held for as many edges as are left, leads to the end of the cycle. -/
theorem after_held_edges (p : Ports) (l : List Event) {s : State} (hs : s.PositionOk Config.hw)
    (hrst : p.rst = false) :
    State.after (ticksLeft Config.hw s)
        { s with stim := List.replicate (ticksLeft Config.hw s) (.edge p) ++ l } =
      { cycleEnd s with stim := l } := by
  have hrun := run_edges_of_le_ticksLeft (List.replicate (ticksLeft Config.hw s) p) l
    (s := { s with stim := List.replicate (ticksLeft Config.hw s) (.edge p) ++ l }) hs
    (fun q hq => List.eq_of_mem_replicate hq ▸ hrst) (List.length_replicate.le)
    (by rw [edges, List.map_replicate])
  rw [List.length_replicate, advance_iterate_with_stim] at hrun
  exact after_of_run hrun

/-! ### The script lines `WAIT_IDLE` and `WRITE` (R68) -/

theorem play_waitIdle {s : State} (hs : s.PositionOk Config.hw) :
    ScriptLine.waitIdle.play s = { cycleEnd s with stim := s.stim } := by
  simp only [ScriptLine.play, ScriptLine.events, List.length_replicate]
  exact after_held_edges Ports.quiet s.stim hs rfl

/-- A write offered in `IDLE` is accepted. -/
theorem step_writeEdge_of_idle {s : State} {r : Reading} {l : List Event} (h : s.stim = writeEdge r :: l)
    (hidle : s.phase = .idle) : step s = .next (storeReading r { s with stim := l }) := by
  rw [step_edge h]
  exact congrArg Host.Outcome.next (request_of_idle (s := { s with stim := l }) hidle (storeReading r))

/-- The write is held to the end of the cycle, and the edge after it stores the Reading. -/
theorem play_write (r : Reading) {s : State} (hs : s.PositionOk Config.hw) :
    (ScriptLine.write r).play s = storeReading r { cycleEnd s with stim := s.stim } := by
  simp only [ScriptLine.play, ScriptLine.events, List.length_replicate]
  rw [List.replicate_succ', List.append_assoc, List.singleton_append, after_succ_last, writeEdge,
    after_held_edges _ _ hs rfl]
  exact succ_of_step (step_writeEdge_of_idle rfl (cycleEnd_phase hs))

/-- Settles O55: both lines run to the end of the cycle, which keeps the Reading and `FRAME`; `WRITE` then
stores its Reading. -/
theorem scriptLinesWaitAndWrite : Obligations.ScriptLinesWaitAndWrite := by
  intro s r hs
  rw [play_waitIdle hs, play_write r hs]
  exact ⟨cycleEnd_phase hs, cycleEnd_reading s, cycleEnd_frame s, rfl, cycleEnd_phase hs, cycleEnd_frame s⟩

end Sys2Proof.Proofs
end

section
/-! SUPPORT. What a step runs (R69): the fetch without an edge, and the host word of the sampled ports
(R63) under the decoder. -/

namespace Sys2Proof.Proofs

open Sys2Proof.Machine Sys2Proof.Laws

/-! ### The fetch -/

/-- With the stimulus used up the step is an edge without a request. -/
theorem step_nil {s : State} (h : s.stim = []) : step s = exec .nop s := by
  have hkeep : s.fetched = s := by rw [State.fetched, h, List.tail_nil, ← h]
  rw [step_eq, fetch_nil h, hkeep]

theorem step_eval {s : State} {i : Instr} {l : List Event} (h : s.stim = .eval i :: l) :
    step s = exec i { s with stim := l } := by
  rw [step_eq, fetch_eval h, State.fetched, h, List.tail_cons]

/-! ### The host word -/

/-- Decoding a host word gives the operation that its request lines select, with the Reading of its write
port. -/
theorem decode_hostCode {n : Nat} (hn : n < 8) (w : Word49) :
    decode (hostCode n w) =
      .ok (hostInstr (n.testBit 2) (n.testBit 1) (n.testBit 0) (Reading.ofWord w)) := by
  have hfits : ¬ 2 ^ 57 ≤ n + 2 ^ 8 * w.toNat :=
    Nat.not_le.2 (EncodedFits.hostCode_fits n w (by omega))
  have hpadding : (n + 2 ^ 8 * w.toNat) / 8 % 32 = 0 := by omega
  have hport : (n + 2 ^ 8 * w.toNat) / 256 = w.toNat := by omega
  have hline (j : Nat) (hj : j < 8) : (n + 2 ^ 8 * w.toNat).testBit j = n.testBit j := by
    rw [Nat.add_comm, Nat.testBit_two_pow_mul_add _ (by omega), if_pos hj]
  simp only [decode, hostCode, decodeHost, if_neg hfits, hpadding, ne_eq, not_true, if_false, hport,
    BitVec.ofNat_toNat, BitVec.setWidth_eq, hline 2 (by decide), hline 1 (by decide),
    hline 0 (by decide)]

/-- The three request lines as bits 2 to 0 of a number. -/
theorem requestLines_testBit (rst trigger wrValid : Bool) :
    let n := 4 * rst.toNat + 2 * trigger.toNat + wrValid.toNat
    n < 8 ∧ n.testBit 2 = rst ∧ n.testBit 1 = trigger ∧ n.testBit 0 = wrValid := by
  revert rst trigger wrValid
  decide

/-- Settles O5: the three items a stimulus can begin with, and the decoder on the host word of the ports. -/
theorem stepRunsTheFetchedOperation : Obligations.StepRunsTheFetchedOperation := by
  refine ⟨fun _ => step_nil, fun _ _ _ => step_edge, fun _ _ _ => step_eval, fun p => ?_⟩
  obtain ⟨hn, hrst, htrigger, hwrite⟩ := requestLines_testBit p.rst p.trigger p.wrValid
  have hdecode := decode_hostCode hn p.wr.word
  rw [hrst, htrigger, hwrite, Reading.ofWord_word] at hdecode
  exact hdecode

end Sys2Proof.Proofs
end

section
/-! SUPPORT. The host operations in `IDLE` (R70 to R73), and a request held to the end of a cycle (R74,
R75). -/

namespace Sys2Proof.Proofs

open Sys2Proof.Machine Sys2Proof.Laws

/-! ### `NOP`, `WRITE`, `TRIGGER` and both, in `IDLE` -/

theorem exec_nop_of_idle {s : State} (h : s.phase = .idle) : exec .nop s = .next s := by
  rw [exec_nop, request_of_idle h, id]

theorem exec_write_of_idle {s : State} (h : s.phase = .idle) (r : Reading) :
    exec (.write r) s = .next (storeReading r s) := by
  rw [exec_write, request_of_idle h]

theorem exec_trigger_of_idle {s : State} (h : s.phase = .idle) :
    exec .trigger s = .next (startCycle Config.hw s) := by
  rw [exec_trigger, request_of_idle h]

theorem exec_writeTrigger_of_idle {s : State} (h : s.phase = .idle) (r : Reading) :
    exec (.writeTrigger r) s = .next (storeReading r (startCycle Config.hw s)) := by
  rw [exec_writeTrigger, request_of_idle h]

/-- The whole state at the start of a cycle (R72). -/
theorem startCycle_hw (s : State) : startCycle Config.hw s =
    { s with frame := encodeFrame Config.hw s.reading, phase := .preLow, rep := false, idx := 0,
             timer := 1249, pin := false } := rfl

/-- Settles O13: an accepted write is the store of the Reading, and a store leaves nothing of the one
before. -/
theorem acceptedWriteStoresTheReadingAndNothingElse :
    Obligations.AcceptedWriteStoresTheReadingAndNothingElse := by
  intro s r r' hidle
  exact ⟨exec_write_of_idle hidle r, exec_write_of_idle (s := { s with reading := r }) hidle r',
    exec_write_of_idle hidle s.reading⟩

/-- Settles O15: the cycle starts with the Reading before the edge, and the store of the new one follows. -/
theorem writeTriggerSendsTheOldReading : Obligations.WriteTriggerSendsTheOldReading := by
  intro s r hidle
  rw [exec_writeTrigger_of_idle hidle, startCycle_hw, storeReading]

/-! ### The operation of the ports without `rst` (R63) -/

theorem instr_eq_nop {p : Ports} (hrst : p.rst = false) (htrigger : p.trigger = false)
    (hwrite : p.wrValid = false) : p.instr = .nop := by
  rw [Ports.instr, hrst, htrigger, hwrite, hostInstr]

theorem instr_eq_write {p : Ports} (hrst : p.rst = false) (htrigger : p.trigger = false)
    (hwrite : p.wrValid = true) : p.instr = .write p.wr := by
  rw [Ports.instr, hrst, htrigger, hwrite, hostInstr]

theorem instr_eq_trigger {p : Ports} (hrst : p.rst = false) (htrigger : p.trigger = true)
    (hwrite : p.wrValid = false) : p.instr = .trigger := by
  rw [Ports.instr, hrst, htrigger, hwrite, hostInstr]

/-! ### Edges without a request -/

/-- In `IDLE` edges without a request change no register, however many they are. -/
theorem run_quiet_edges_of_idle (ps : List Ports) (l : List Event) {s : State} (hidle : s.phase = .idle)
    (hquiet : ∀ q ∈ ps, q.rst = false ∧ q.trigger = false ∧ q.wrValid = false)
    (hstim : s.stim = edges ps ++ l) :
    Host.Core.run Sys2Proof.core ps.length s = .next { s with stim := l } := by
  induction ps generalizing s with
  | nil =>
    obtain rfl : s.stim = l := hstim
    rfl
  | cons p ps ih =>
    obtain ⟨hrst, htrigger, hwrite⟩ := hquiet p List.mem_cons_self
    have hstep : step s = .next { s with stim := edges ps ++ l } := by
      rw [step_edge hstim, instr_eq_nop hrst htrigger hwrite]
      exact exec_nop_of_idle hidle
    rw [List.length_cons, run_succ_of_step hstep]
    exact ih hidle (fun q hq => hquiet q (List.mem_cons_of_mem p hq)) rfl

/-- Settles O12: a `NOP` in `IDLE` and in `BUSY`, and the induction over the edges of a quiet run. -/
theorem nopWaitsInIdleAndAdvancesInBusy : Obligations.NopWaitsInIdleAndAdvancesInBusy := by
  refine ⟨fun s => exec_nop_of_idle, fun s hbusy => ?_, fun s ps l => run_quiet_edges_of_idle ps l⟩
  rw [exec_nop, request_of_busy hbusy]

/-! ### The first edge after a cycle -/

theorem run_succ_of_run {k : Nat} {s t u : State} (hrun : Host.Core.run Sys2Proof.core k s = .next t)
    (hstep : step t = .next u) : Host.Core.run Sys2Proof.core (k + 1) s = .next u := by
  induction k generalizing s with
  | zero =>
    cases hrun
    exact run_succ_of_step hstep 0
  | succ k ih =>
    obtain ⟨v, hfirst, _⟩ := exec_move s.fetch s.fetched
    rw [run_succ_of_step hfirst] at hrun ⊢
    exact ih hrun

/-- The sequencer writes its own registers and the pin, and nothing else. -/
theorem advance_iterate_eq_with (c : Config) (k : Nat) (s : State) : ∃ p r i t b,
    (advance c)^[k] s = { s with phase := p, rep := r, idx := i, timer := t, pin := b } := by
  induction k with
  | zero => exact ⟨s.phase, s.rep, s.idx, s.timer, s.pin, rfl⟩
  | succ k ih =>
    obtain ⟨p, r, i, t, b, h⟩ := ih
    rw [Function.iterate_succ_apply', h]
    rcases advance_cases c { s with phase := p, rep := r, idx := i, timer := t, pin := b } with
      ⟨_, e⟩ | ⟨_, _, e⟩ | ⟨_, _, e⟩ <;> exact ⟨_, _, _, _, _, e⟩

/-- At the end of a cycle the sequencer's registers and the pin are those of `IDLE`, and everything else is
as it was (R134). -/
theorem cycleEnd_eq {s : State} (hs : s.PositionOk Config.hw) :
    cycleEnd s = { s with phase := .idle, rep := false, idx := 0, timer := 0, pin := false } := by
  have hphase := cycleEnd_phase hs
  obtain ⟨hidle, _⟩ : (cycleEnd s).PositionOk Config.hw := advance_iterate_positionOk hw_wf _ hs
  obtain ⟨hrep, hidx, htimer, hpin⟩ := hidle hphase
  obtain ⟨p, r, i, t, b, h⟩ :
      ∃ p r i t b, cycleEnd s = { s with phase := p, rep := r, idx := i, timer := t, pin := b } :=
    advance_iterate_eq_with _ _ s
  rw [h] at hphase hrep hidx htimer hpin ⊢
  subst hphase hrep hidx htimer hpin
  rfl

/-- The operation of the first edge after a cycle is run on the state at the end of the cycle, whatever the
requests during it. -/
theorem run_past_cycle {ps : List Ports} {p : Ports} {l : List Event} {s t : State}
    (hs : s.PositionOk Config.hw) (hrst : ∀ q ∈ ps, q.rst = false)
    (hlen : ps.length = ticksLeft Config.hw s) (hstim : s.stim = edges (ps ++ [p]) ++ l)
    (hexec : exec p.instr { cycleEnd s with stim := l } = .next t) :
    Host.Core.run Sys2Proof.core (ps.length + 1) s = .next t := by
  have hsplit : s.stim = edges ps ++ .edge p :: l := by
    simp [hstim, edges]
  have hrun := run_edges_of_le_ticksLeft ps (.edge p :: l) hs hrst hlen.le hsplit
  refine run_succ_of_run hrun ?_
  rw [step_edge rfl, hlen]
  exact hexec

/-- Settles O54: the edge after the cycle finds the machine in `IDLE`, with the Reading and `FRAME` kept, and
its request is accepted there. -/
theorem heldRequestIsTakenAfterTheCycle : Obligations.HeldRequestIsTakenAfterTheCycle := by
  intro s ps p l hs _ hps hlen hrst hstim
  refine ⟨fun htrigger hwrite => run_past_cycle hs hps hlen hstim ?_,
    fun htrigger hwrite => run_past_cycle hs hps hlen hstim ?_⟩
  · rw [cycleEnd_eq hs, instr_eq_write hrst htrigger hwrite, exec_write_of_idle rfl, storeReading]
  · rw [cycleEnd_eq hs, instr_eq_trigger hrst htrigger hwrite, exec_trigger_of_idle rfl, startCycle_hw]

end Sys2Proof.Proofs
end

section
/-! SUPPORT. `CHECKSUM`: its 16-bit form (R78), and what it reads (R80). -/

namespace Sys2Proof.Proofs

open Sys2Proof.Machine Sys2Proof.Laws

/-! ### The sum and the fold on 16 bits (R78) -/

/-- The sum of the three bytes in the 16 bits that R78 gives it. -/
def byteSum16 (d : Word32) : BitVec 16 :=
  (d.extractLsb' 16 8).setWidth 16 + (d.extractLsb' 8 8).setWidth 16 + (d.extractLsb' 0 8).setWidth 16

/-- R78's fold on 16 bits, `(sum >> 8) + (sum & 0xFF)`. -/
def foldOnce16 (sum : BitVec 16) : BitVec 16 := (sum >>> 8) + (sum &&& 0xFF)

/-- The 16-bit sum never wraps (R79). -/
theorem byteSum16_toNat (d : Word32) : (byteSum16 d).toNat = byteSum d := by
  have hle : byteSum d ≤ 765 := byteSum_le d
  simp only [byteSum] at hle ⊢
  simp only [byteSum16, BitVec.toNat_add, BitVec.toNat_setWidth]
  omega

/-- The two bytes of a 16-bit value add up without a wrap. -/
theorem foldOnce16_toNat (sum : BitVec 16) : (foldOnce16 sum).toNat = foldOnce sum.toNat := by
  have hlow : (sum &&& 0xFF).toNat = sum.toNat % 2 ^ 8 := by
    rw [BitVec.toNat_and]
    exact Nat.and_two_pow_sub_one_eq_mod sum.toNat 8
  have hlt := sum.isLt
  simp only [foldOnce16, foldOnce, BitVec.toNat_add, hlow, BitVec.toNat_ushiftRight, Nat.shiftRight_eq_div_pow]
  omega

theorem checksum_eq_foldOnce16 (d : Word32) : checksum d = (foldOnce16 (byteSum16 d)).setWidth 8 := by
  apply BitVec.eq_of_toNat_eq
  rw [checksum, BitVec.toNat_ofNat, BitVec.toNat_setWidth, foldOnce16_toNat, byteSum16_toNat]

/-- Settles O16: neither the sum nor the fold wraps in 16 bits, so both are those on numbers. -/
theorem checksumIsTheByteSumFoldedOnce : Obligations.ChecksumIsTheByteSumFoldedOnce := by
  intro d s
  rw [exec_checksum, checksum_eq_foldOnce16]
  rfl

/-! ### The bits that are read (R80) -/

/-- `CHECKSUM` reads bits 0 to 23 and no other. -/
theorem checksum_congr {d e : Word32} (h : ∀ i < 24, d.getLsbD i = e.getLsbD i) : checksum d = checksum e := by
  have hbyte (k : Nat) (hk : k ≤ 16) : d.extractLsb' k 8 = e.extractLsb' k 8 := by
    apply BitVec.eq_of_getLsbD_eq
    intro i hi
    simp [h (k + i) (by omega)]
  have hsum : byteSum d = byteSum e := by
    simp only [byteSum, hbyte 16 (by omega), hbyte 8 (by omega), hbyte 0 (by omega)]
  rw [checksum, checksum, hsum]

theorem dataMask_getLsbD : ∀ i < 24, (0x00FFFFFF : Word32).getLsbD i = true := by decide

theorem checksum_and_dataMask (d : Word32) : checksum (d &&& 0x00FFFFFF) = checksum d :=
  checksum_congr fun i hi => by rw [BitVec.getLsbD_and, dataMask_getLsbD i hi, Bool.and_true]

/-- Settles O17: the mask keeps every bit that is read. -/
theorem checksumReadsTheDataPortionOnly : Obligations.ChecksumReadsTheDataPortionOnly := by
  intro d s
  refine ⟨checksum d, exec_checksum d s, ?_⟩
  rw [exec_checksum, checksum_and_dataMask]
  rfl

end Sys2Proof.Proofs
end

section
/-! SUPPORT. The value of a temperature word as a rational number (R88), and its magnitude (R89). -/

namespace Sys2Proof.Proofs

open Sys2Proof.Machine Sys2Proof.Laws

/-! ### The rational that a value stands for -/

/-- The rational number of a sign and a number of units of `2^(-149)` (log entry 13). -/
def realValue (s : Bool) (n : Nat) : ℚ := (if s then -1 else 1) * (n : ℚ) * 2 ^ (-149 : ℤ)

/-- The rational number that a value stands for; none for `NaN` and the infinities. -/
def ratValue : TVal → Option ℚ
  | .real s n => some (realValue s n)
  | .nan | .inf _ => none

theorem tval_of_exp_max {w : Word32} (he : (w.extractLsb' 23 8).toNat = 255) :
    tval .binary32 w = if (w.extractLsb' 0 23).toNat = 0 then .inf (w.getLsbD 31) else .nan :=
  if_pos he

theorem tval_of_exp_zero {w : Word32} (he : (w.extractLsb' 23 8).toNat = 0) :
    tval .binary32 w = .real (w.getLsbD 31) (w.extractLsb' 0 23).toNat :=
  (if_neg (by omega)).trans (if_pos he)

theorem tval_of_normal {w : Word32} (hmax : (w.extractLsb' 23 8).toNat ≠ 255)
    (hzero : (w.extractLsb' 23 8).toNat ≠ 0) :
    tval .binary32 w = .real (w.getLsbD 31)
      ((2 ^ 23 + (w.extractLsb' 0 23).toNat) * 2 ^ ((w.extractLsb' 23 8).toNat - 1)) :=
  (if_neg hmax).trans (if_neg hzero)

/-- A normal word's power of two, in units of `2^(-149)`. -/
theorem two_zpow_exp {e : Nat} (he : e ≠ 0) :
    (2 : ℚ) ^ ((e : ℤ) - 150) = (2 : ℚ) ^ (e - 1) * (2 : ℚ) ^ (-149 : ℤ) := by
  rw [← zpow_natCast, ← zpow_add₀ two_ne_zero]
  congr 1
  omega

/-- The formula of R88 gives the rational that the model's value stands for. -/
theorem tempValue_eq_ratValue (w : Word32) : tempValue w = ratValue (tval .binary32 w) := by
  by_cases hmax : (w.extractLsb' 23 8).toNat = 255
  · rw [tval_of_exp_max hmax, tempValue, if_pos hmax]
    split <;> rfl
  · by_cases hzero : (w.extractLsb' 23 8).toNat = 0
    · rw [tval_of_exp_zero hzero, tempValue, if_neg hmax, if_pos hzero]
      rfl
    · rw [tval_of_normal hmax hzero, tempValue, if_neg hmax, if_neg hzero, two_zpow_exp hzero, ratValue,
        realValue]
      push_cast
      ring_nf

theorem ratValue_eq_some {v : TVal} {q : ℚ} (h : ratValue v = some q) :
    ∃ s n, v = .real s n ∧ q = realValue s n := by
  cases v with
  | real s n => exact ⟨s, n, rfl, (Option.some.inj h).symm⟩
  | nan => cases h
  | inf s => cases h

theorem tval_eq_real {w : Word32} (h : (w.extractLsb' 23 8).toNat ≠ 255) :
    ∃ s n, tval .binary32 w = .real s n := by
  by_cases hzero : (w.extractLsb' 23 8).toNat = 0
  · exact ⟨_, _, tval_of_exp_zero hzero⟩
  · exact ⟨_, _, tval_of_normal h hzero⟩

/-! ### The two predicates (R88) -/

theorem degree_pos : (0 : ℚ) < degree := by norm_num [degree]

theorem two_zpow_unit : (2 : ℚ) ^ (-149 : ℤ) = (degree : ℚ)⁻¹ := by norm_num [degree]

theorem realValue_eq_div (s : Bool) (n : Nat) :
    realValue s n = (if s then -1 else 1) * ((n : ℚ) / degree) := by
  rw [realValue, two_zpow_unit, div_eq_mul_inv, mul_assoc]

theorem abs_realValue (s : Bool) (n : Nat) : |realValue s n| = (n : ℚ) / degree := by
  rw [realValue_eq_div, abs_mul, abs_of_nonneg (div_nonneg n.cast_nonneg degree_pos.le)]
  cases s <;> simp

theorem abs_realValue_lt_iff (s : Bool) (n : Nat) : |realValue s n| < 99 ↔ n < 99 * degree := by
  rw [abs_realValue, div_lt_iff₀ degree_pos]
  exact_mod_cast Iff.rfl

theorem realValue_neg_iff (s : Bool) (n : Nat) : realValue s n < 0 ↔ s = true ∧ n ≠ 0 := by
  have hnonneg : 0 ≤ (n : ℚ) / degree := div_nonneg n.cast_nonneg degree_pos.le
  rw [realValue_eq_div]
  cases s with
  | false => simpa using hnonneg
  | true => simp [degree_pos.ne', hnonneg.lt_iff_ne']

/-- `InRange` is the comparison of the rational with both bounds. -/
theorem inRange_iff_ratValue (v : TVal) :
    v.inRange = true ↔ ∃ q, ratValue v = some q ∧ -99 < q ∧ q < 99 := by
  cases v with
  | real s n => simp [TVal.inRange, ratValue, ← abs_lt, abs_realValue_lt_iff]
  | nan => simp [TVal.inRange, ratValue]
  | inf s => simp [TVal.inRange, ratValue]

/-- `Neg` is the comparison of the rational with 0. -/
theorem neg_iff_ratValue (v : TVal) : v.neg = true ↔ ∃ q, ratValue v = some q ∧ q < 0 := by
  cases v with
  | real s n => simp [TVal.neg, ratValue, realValue_neg_iff]
  | nan => simp [TVal.neg, ratValue]
  | inf s => simp [TVal.neg, ratValue]

/-- Settles O20: the formula's rational is the one that the model's value stands for, and the two predicates
compare it. -/
theorem temperatureWordHasTheFormulasValue : Obligations.TemperatureWordHasTheFormulasValue := by
  intro w
  refine ⟨fun he hm => ?_, fun he hm => ?_, fun he => ?_, ?_, ?_⟩
  · exact (tval_of_exp_max he).trans (if_neg hm)
  · exact (tval_of_exp_max he).trans (if_pos hm)
  · obtain ⟨s, n, hreal⟩ := tval_eq_real he
    refine ⟨s, n, hreal, ?_⟩
    rw [tempValue_eq_ratValue, hreal, ratValue, realValue]
  · rw [tempValue_eq_ratValue]
    exact inRange_iff_ratValue _
  · rw [tempValue_eq_ratValue]
    exact neg_iff_ratValue _

/-! ### The magnitude (R89) -/

/-- The model's division of whole numbers is R89's floor of the exact product and a half. -/
theorem roundHalfUp_eq_floor (n : Nat) :
    ((roundHalfUp (10 * n) : Nat) : ℤ) = ⌊(n : ℚ) / degree * 10 + 1 / 2⌋ := by
  have hfraction : (n : ℚ) / degree * 10 + 1 / 2 =
      ((2 * (10 * n) + degree : Nat) : ℚ) / ((2 * degree : Nat) : ℚ) := by
    have hdegree := degree_pos.ne'
    push_cast
    field_simp
  rw [hfraction, Rat.floor_natCast_div_natCast, roundHalfUp, Int.natCast_div]

/-- Settles O21: in range the magnitude is the floor, at most 990; and the floor is at least 990 exactly if
the product is at least 989.5. -/
theorem magnitudeRoundsTheExactProductHalfUp : Obligations.MagnitudeRoundsTheExactProductHalfUp := by
  intro w q hq hlower hupper
  rw [tempValue_eq_ratValue] at hq
  have hrange : (tval .binary32 w).inRange = true := (inRange_iff_ratValue _).2 ⟨q, hq, hlower, hupper⟩
  have hle : mag10 .exactProduct (tval .binary32 w) ≤ 990 := mag10_le _ hrange
  have hfloor : ((mag10 .exactProduct (tval .binary32 w) : Nat) : ℤ) = ⌊|q| * 10 + 1 / 2⌋ := by
    obtain ⟨s, n, hreal, rfl⟩ := ratValue_eq_some hq
    rw [hreal, abs_realValue]
    exact roundHalfUp_eq_floor n
  refine ⟨hfloor, hle, ?_⟩
  calc mag10 .exactProduct (tval .binary32 w) = 990
      ↔ (990 : ℤ) ≤ ⌊|q| * 10 + 1 / 2⌋ := by omega
    _ ↔ (990 : ℚ) ≤ |q| * 10 + 1 / 2 := by rw [Int.le_floor]; norm_num
    _ ↔ (9895 : ℚ) / 100 ≤ |q| := by constructor <;> intro h <;> linarith

end Sys2Proof.Proofs
end

section
/-! SUPPORT. The frame that the encoder gives (R94): its closed form, its sign and digits in range (R90) and
out of range (R91), and its checksum (R93). -/

namespace Sys2Proof.Proofs

open Sys2Proof.Machine Sys2Proof.Laws

/-! ### Sign and magnitude as they are sent -/

theorem sentMagnitude_of_inRange {w : Word32} (h : (tval .binary32 w).inRange = true) :
    sentMagnitude Config.hw w = mag10 .exactProduct (tval .binary32 w) :=
  if_pos h

theorem sentMagnitude_of_outOfRange {w : Word32} (h : (tval .binary32 w).inRange = false) :
    sentMagnitude Config.hw w = 0 :=
  if_neg (ne_true_of_eq_false h)

theorem sentSign_eq (w : Word32) :
    sentSign Config.hw w = ((tval .binary32 w).inRange && (tval .binary32 w).neg) := by
  simp [sentSign, Bool.and_comm]

/-! ### The digits (R90) -/

theorem digitTens_toNat {m : Nat} (h : m ≤ 990) : (digitTens m).toNat = m / 100 := by
  rw [digitTens, BitVec.toNat_ofNat]
  omega

theorem digitUnits_toNat (m : Nat) : (digitUnits m).toNat = m / 10 % 10 := by
  rw [digitUnits, BitVec.toNat_ofNat]
  omega

theorem digitTenths_toNat (m : Nat) : (digitTenths m).toNat = m % 10 := by
  rw [digitTenths, BitVec.toNat_ofNat]
  omega

/-- The three digits stand next to each other in a frame (R52). -/
theorem Frame32.word_digits (f : Frame32) : f.word.extractLsb' 8 12 = f.tens ++ (f.units ++ f.tenths) := by
  have hlow : f.word.extractLsb' 8 8 = f.units ++ f.tenths := by
    rw [← Frame32.word_units, ← Frame32.word_tenths]
    exact (BitVec.extractLsb'_append_extractLsb'_eq_extractLsb' (len₁ := 4) (len₂ := 4) rfl).symm
  rw [← hlow, ← Frame32.word_tens]
  exact (BitVec.extractLsb'_append_extractLsb'_eq_extractLsb' (len₁ := 8) (len₂ := 4) rfl).symm

theorem encodeFrame_sign (r : Reading) :
    (encodeFrame Config.hw r).getLsbD 21 = sentSign Config.hw r.temperature :=
  Frame32.word_sign _

theorem encodeFrame_tens (r : Reading) :
    (encodeFrame Config.hw r).extractLsb' 16 4 = digitTens (sentMagnitude Config.hw r.temperature) :=
  Frame32.word_tens _

theorem encodeFrame_units (r : Reading) :
    (encodeFrame Config.hw r).extractLsb' 12 4 = digitUnits (sentMagnitude Config.hw r.temperature) :=
  Frame32.word_units _

theorem encodeFrame_tenths (r : Reading) :
    (encodeFrame Config.hw r).extractLsb' 8 4 = digitTenths (sentMagnitude Config.hw r.temperature) :=
  Frame32.word_tenths _

theorem encodeFrame_digits (r : Reading) :
    (encodeFrame Config.hw r).extractLsb' 8 12 =
      digitTens (sentMagnitude Config.hw r.temperature) ++
        (digitUnits (sentMagnitude Config.hw r.temperature) ++
          digitTenths (sentMagnitude Config.hw r.temperature)) :=
  Frame32.word_digits _

/-- Settles O24: the frame's sign and digits are those of the encoder's fields, which in range are `Neg` and
the digits of `Mag10`. -/
theorem inRangeTemperatureSendsSignAndDigits : Obligations.InRangeTemperatureSendsSignAndDigits := by
  intro r hrange
  rw [encodeFrame_sign, encodeFrame_tens, encodeFrame_units, encodeFrame_tenths, sentSign_eq, hrange,
    Bool.true_and, sentMagnitude_of_inRange hrange]
  exact ⟨rfl, digitTens_toNat (mag10_le _ hrange), digitUnits_toNat _, digitTenths_toNat _⟩

/-! ### Out of range (R91) -/

/-- Out of range a temperature is sent as the word 0 is: with sign and magnitude 0. -/
theorem dataFields_of_outOfRange {r : Reading} (h : (tval .binary32 r.temperature).inRange = false) :
    dataFields Config.hw r = dataFields Config.hw { r with temperature := 0 } := by
  have hsign : sentSign Config.hw r.temperature = sentSign Config.hw 0 := by
    rw [sentSign_eq, h]
    rfl
  have hmag : sentMagnitude Config.hw r.temperature = sentMagnitude Config.hw 0 := by
    rw [sentMagnitude_of_outOfRange h]
    decide
  simp only [dataFields, hsign, hmag]

theorem encodeFrame_of_outOfRange {r : Reading} (h : (tval .binary32 r.temperature).inRange = false) :
    encodeFrame Config.hw r = encodeFrame Config.hw { r with temperature := 0 } := by
  simp only [encodeFrame, frameFields, dataFields_of_outOfRange h]

/-- A positive word's number is its exponent and its fraction. -/
theorem toNat_eq_exp_fraction {w : Word32} (h : w.getLsbD 31 = false) :
    w.toNat = (w.extractLsb' 23 8).toNat * 2 ^ 23 + (w.extractLsb' 0 23).toNat := by
  have hlt : w.toNat < 2 ^ 31 := by
    have hmsb := BitVec.msb_eq_decide w
    rw [BitVec.msb_eq_getLsbD_last, h] at hmsb
    simpa using hmsb.symm
  simp only [BitVec.extractLsb'_toNat, Nat.shiftRight_eq_div_pow]
  omega

/-- The value of an exponent and a fraction from those of 99.0 on is at least 99 degrees. -/
theorem ninetyNine_degrees_le {e m : Nat} (hm : m < 2 ^ 23) (h : 0x42C60000 ≤ e * 2 ^ 23 + m) :
    99 * degree ≤ (2 ^ 23 + m) * 2 ^ (e - 1) := by
  have hexp : e = 133 ∨ 134 ≤ e := by omega
  rcases hexp with rfl | hexp
  · calc 99 * degree = (99 * 2 ^ 17) * 2 ^ 132 := by decide
      _ ≤ (2 ^ 23 + m) * 2 ^ 132 := Nat.mul_le_mul_right _ (by omega)
  · calc 99 * degree ≤ 2 ^ 23 * 2 ^ 133 := by decide
      _ ≤ (2 ^ 23 + m) * 2 ^ (e - 1) :=
        Nat.mul_le_mul (by omega) (Nat.pow_le_pow_right (by omega) (by omega))

/-- Positive words in range stand below the word of 99.0. -/
theorem toNat_lt_of_inRange {w : Word32} (hrange : (tval .binary32 w).inRange = true)
    (hsign : w.getLsbD 31 = false) : w.toNat < 0x42C60000 := by
  by_contra hge
  rw [toNat_eq_exp_fraction hsign, not_lt] at hge
  have hfraction := (w.extractLsb' 0 23).isLt
  by_cases hmax : (w.extractLsb' 23 8).toNat = 255
  · rw [tval_of_exp_max hmax] at hrange
    split at hrange <;> cases hrange
  · rw [tval_of_normal hmax (by omega), TVal.inRange, decide_eq_true_eq] at hrange
    exact absurd hrange (ninetyNine_degrees_le hfraction hge).not_gt

/-- Settles O25: out of range the fields are those of the word 0, and sign and digits are 0; the fixed words
are evaluated, and the words from 99.0 on are out of range. -/
theorem outOfRangeTemperatureSendsPlusZero : Obligations.OutOfRangeTemperatureSendsPlusZero := by
  refine ⟨fun r h => ⟨?_, ?_, encodeFrame_of_outOfRange h⟩, by decide, by decide,
    fun w hrange hsign => Nat.le_of_lt_succ (toNat_lt_of_inRange hrange hsign), by decide, by decide,
    fun w hw => ?_, by decide⟩
  · rw [encodeFrame_sign, sentSign_eq, h, Bool.false_and]
  · rw [encodeFrame_digits, sentMagnitude_of_outOfRange h]
    rfl
  · rcases hw with hnan | hinf | hinf
    · rw [hnan, TVal.inRange]
    · rw [hinf, TVal.inRange]
    · rw [hinf, TVal.inRange]

/-! ### The checksum (R93) -/

/-- The frame is the data portion with its checksum placed above it. -/
theorem encodeFrame_eq_or (c : Config) (r : Reading) :
    encodeFrame c r =
      (dataFields c r).word ||| (checksum (dataFields c r).word).setWidth 32 <<< 24 := by
  simp [encodeFrame, frameFields, Frame32.word, dataFields]

/-- What is placed above the data portion is not read (R80). -/
theorem checksum_or_shiftLeft (d x : Word32) : checksum (d ||| x <<< 24) = checksum d :=
  checksum_congr fun i hi => by simp [hi]

/-- Settles O26: the field is the checksum of the data portion, and `CHECKSUM` does not read the field. -/
theorem frameCarriesItsChecksum : Obligations.FrameCarriesItsChecksum := by
  intro r
  have hfield : (encodeFrame Config.hw r).extractLsb' 24 8 = checksum (dataFields Config.hw r).word :=
    Frame32.word_csum _
  have hframe : checksum (encodeFrame Config.hw r) = checksum (dataFields Config.hw r).word := by
    rw [encodeFrame_eq_or, checksum_or_shiftLeft]
  rw [checksum_and_dataMask, hframe]
  exact ⟨hfield, hfield⟩

/-! ### The closed form (R94) -/

/-- A byte cut to `k` bits is the byte with the bits above masked off. -/
theorem setWidth_setWidth_eq_and {k : Nat} (hk : k ≤ 8) (x : BitVec 8) :
    (x.setWidth k).setWidth 32 = (x &&& BitVec.ofNat 8 (2 ^ k - 1)).setWidth 32 := by
  have hpow : 2 ^ k ≤ 2 ^ 8 := Nat.pow_le_pow_right (by omega) hk
  apply BitVec.eq_of_toNat_eq
  rw [BitVec.toNat_setWidth, BitVec.toNat_setWidth, BitVec.toNat_setWidth, BitVec.toNat_and, BitVec.toNat_ofNat,
    Nat.mod_eq_of_lt (b := 2 ^ 8) (by omega), Nat.and_two_pow_sub_one_eq_mod]

theorem addrField_setWidth (a : Address) : (addrField a).setWidth 32 = (a &&& 7).setWidth 32 :=
  setWidth_setWidth_eq_and (by decide) a

theorem chanField_setWidth (c : Channel) : (chanField c).setWidth 32 = ((c - 1) &&& 3).setWidth 32 :=
  setWidth_setWidth_eq_and (by decide) (c - 1)

/-- R94's `data`. -/
def closedData (r : Reading) : Word32 :=
  let v := tval .binary32 r.temperature
  let m := if v.inRange then mag10 .exactProduct v else 0
  (r.address &&& 7).setWidth 32 ||| ((r.channel - 1) &&& 3).setWidth 32 <<< 6 |||
    BitVec.ofNat 32 (m % 10) <<< 8 ||| BitVec.ofNat 32 (m / 10 % 10) <<< 12 |||
    BitVec.ofNat 32 (m / 100) <<< 16 ||| (BitVec.ofBool (v.inRange && v.neg)).setWidth 32 <<< 21 |||
    (BitVec.ofBool r.lowbat).setWidth 32 <<< 23

/-- The encoder's data portion, with `CSUM` still 0, is R94's. -/
theorem dataFields_word (r : Reading) : (dataFields Config.hw r).word = closedData r := by
  have hle := sentMagnitude_le r.temperature
  have hdigit (n : Nat) (hn : n < 2 ^ 4) : (BitVec.ofNat 4 n).setWidth 32 = BitVec.ofNat 32 n :=
    BitVec.setWidth_ofNat_of_le_of_lt (by decide) hn
  rw [Frame32.word, dataFields, addrField_setWidth, chanField_setWidth, digitTenths, digitUnits, digitTens,
    hdigit _ (by omega), hdigit _ (by omega), hdigit _ (by omega), sentSign_eq]
  have hcsum : (0 : Byte).setWidth 32 <<< 24 = (0 : Word32) := by decide
  rw [hcsum]
  exact BitVec.or_zero

/-- Settles O22: the encoder's fields at their places are R94's data portion, and its checksum stands above
it. -/
theorem encodeGivesTheClosedForm : Obligations.EncodeGivesTheClosedForm := by
  intro s
  rw [exec_encode, encodeFrame_eq_or, dataFields_word]
  rfl

end Sys2Proof.Proofs
end

section
/-! SUPPORT. The ten phases as operations: the count of the timer, and where each phase leads at timer 0
(R116, R117). -/

namespace Sys2Proof.Proofs

open Sys2Proof.Machine Sys2Proof.Laws

/-! ### The selected phase (R50, R62) -/

theorem exec_phase_of_selected {s : State} {p : Phase} (h : s.phase = p) :
    exec p.instr s = .next (advance Config.hw s) := by
  rw [exec_phase, runPhase_selected h]

/-- Settles O28: the selected phase's operation is the advance, which counts down while the timer is not
0. -/
theorem phaseCountsDown : Obligations.PhaseCountsDown := by
  intro s hbusy ht
  rw [exec_phase_of_selected rfl, advance_of_timer hbusy ht, countDown]

/-- At timer 0 the selected phase's operation enters the next position of R116's table. -/
theorem exec_phase_at_end {p p' : Phase} {r' : Bool} {i' : BitVec 5} {s : State} (hphase : s.phase = p)
    (hbusy : p ≠ .idle) (ht : s.timer = 0) (hnext : nextPosition p s.rep s.idx = ⟨p', r', i'⟩) :
    exec p.instr s = .next { s with phase := p', rep := r', idx := i', timer := load Config.hw p',
                                    pin := level p' s.frame i' } := by
  rw [exec_phase_of_selected hphase, advance_of_end (hphase ▸ hbusy) ht, hphase, hnext, enter]

/-! ### The rows of R116 -/

/-- Where the table's row gives `IDX` 0 and `IDX` is 0 already, it stays. -/
theorem nextPosition_keeps_idx {s : State} {p p' : Phase} {r' : Bool} (hi : s.idx = 0)
    (h : nextPosition p s.rep 0 = ⟨p', r', 0⟩) : nextPosition p s.rep s.idx = ⟨p', r', s.idx⟩ := by
  rw [hi, h]

/-- Settles O29: the rows of the preamble's phases; `PRE_HIGH` counts the pulses up to 11. -/
theorem preamblePhasesEnd : Obligations.PreamblePhasesEnd := by
  intro s ht
  refine ⟨fun h => ?_, fun h hi => ?_, fun h hi => ?_, fun h hi => ?_⟩
  · exact exec_phase_at_end (p' := .preHigh) h nofun ht rfl
  · exact exec_phase_at_end h nofun ht (nextPosition_preHigh_of_lt s.rep hi)
  · exact exec_phase_at_end h nofun ht (nextPosition_preHigh_last s.rep (by simp [hi]))
  · exact exec_phase_at_end (p' := .syncLow1) h nofun ht (nextPosition_keeps_idx hi rfl)

/-- Settles O30: the rows of the sync marker's phases, none of which counts. -/
theorem syncPhasesEnd : Obligations.SyncPhasesEnd := by
  intro s ht hi
  refine ⟨fun h => ?_, fun h => ?_, fun h => ?_⟩
  · exact exec_phase_at_end (p' := .syncHigh) h nofun ht (nextPosition_keeps_idx hi rfl)
  · exact exec_phase_at_end (p' := .syncLow2) h nofun ht (nextPosition_keeps_idx hi rfl)
  · have hfirst : s.frame.getLsbD 0 = s.frame.getLsbD s.idx.toNat := by rw [hi]; rfl
    rw [hfirst]
    exact exec_phase_at_end (p' := .bitFirst) h nofun ht (nextPosition_keeps_idx hi rfl)

/-- Settles O31: the rows of a bit's two halves; `BIT_SECOND` counts the bits up to 31, and the next bit's
number does not wrap around below that. -/
theorem dataPhasesEnd : Obligations.DataPhasesEnd := by
  intro s ht
  refine ⟨fun h => ?_, fun h hi => ?_, fun h hi => ?_⟩
  · exact exec_phase_at_end (p' := .bitSecond) h nofun ht rfl
  · rw [← idx_add_one_toNat hi]
    exact exec_phase_at_end h nofun ht (nextPosition_bitSecond_of_lt s.rep hi)
  · exact exec_phase_at_end h nofun ht (nextPosition_bitSecond_last s.rep (by simp [hi]))

/-- Settles O32: the two rows of `PAUSE`, told apart by `REP`; in `IDLE` the advance changes nothing. -/
theorem pauseEndsAndIdleStays : Obligations.PauseEndsAndIdleStays := by
  refine ⟨fun s h ht hi hrep => ?_, fun s h ht hi hrep => ?_, fun s h => ?_⟩
  · exact exec_phase_at_end (p' := .preLow) h nofun ht (nextPosition_keeps_idx hi (by rw [hrep]; rfl))
  · exact exec_phase_at_end (p' := .idle) h nofun ht (nextPosition_keeps_idx hi (by rw [hrep]; rfl))
  · exact (exec_phase_of_selected h).trans (congrArg _ (advance_of_idle h))

/-! ### A whole segment -/

/-- While the timer lasts, the sequencer only counts it down. -/
theorem advance_iterate_of_le_timer (c : Config) {s : State} (hbusy : s.phase ≠ .idle) {k : Nat}
    (hk : k ≤ s.timer.toNat) :
    (advance c)^[k] s = { s with timer := s.timer - BitVec.ofNat 17 k } := by
  induction k with
  | zero => simp
  | succ k ih =>
    have ht : s.timer - BitVec.ofNat 17 k ≠ 0 := by bv_omega
    have hless : s.timer - BitVec.ofNat 17 k - 1 = s.timer - BitVec.ofNat 17 (k + 1) := by bv_omega
    rw [Function.iterate_succ_apply', ih (by omega),
      advance_of_timer (s := { s with timer := s.timer - BitVec.ofNat 17 k }) hbusy ht, countDown, hless]

/-- Settles O34: the load is the number of the segment's ticks less one, so the timer lasts up to the
segment's last tick, and the edge after it enters the next position. -/
theorem segmentLastsItsDuration : Obligations.SegmentLastsItsDuration := by
  intro c s hc hbusy htimer
  have hticks : (load c s.phase).toNat + 1 = dur s.phase / c.tickUs := load_toNat_add_one hc hbusy
  rw [← htimer] at hticks ⊢
  refine ⟨fun k hk => advance_iterate_of_le_timer c hbusy (by omega), ?_⟩
  have hlast : s.timer - BitVec.ofNat 17 s.timer.toNat = 0 := by simp
  rw [← hticks, Function.iterate_succ_apply', advance_iterate_of_le_timer c hbusy le_rfl, hlast,
    advance_of_end (s := { s with timer := 0 }) hbusy rfl]
  rfl

/-! ### `IDLE` is left and entered (R111) -/

/-- Only the second `PAUSE` leads to `IDLE`. -/
theorem eq_pause_of_nextPosition_idle {p : Phase} {r : Bool} {i : BitVec 5} (hbusy : p ≠ .idle)
    (h : (nextPosition p r i).phase = .idle) : p = .pause ∧ r = true := by
  cases p with
  | idle => exact absurd rfl hbusy
  | pause =>
    cases r with
    | false => cases h
    | true => exact ⟨rfl, rfl⟩
  | preHigh => rw [nextPosition] at h; split at h <;> cases h
  | bitSecond => rw [nextPosition] at h; split at h <;> cases h
  | _ => cases h

/-- An advance that enters `IDLE` ends the second `PAUSE`. -/
theorem advance_enters_idle {c : Config} {s : State} (hbusy : s.phase ≠ .idle)
    (h : (advance c s).phase = .idle) : s.phase = .pause ∧ s.rep = true ∧ s.timer = 0 := by
  rcases advance_cases c s with ⟨hidle, _⟩ | ⟨_, _, e⟩ | ⟨_, ht, e⟩
  · exact absurd hidle hbusy
  · rw [e, countDown_phase] at h
    exact absurd h hbusy
  · rw [e, enter_phase] at h
    obtain ⟨hpause, hrep⟩ := eq_pause_of_nextPosition_idle hbusy h
    exact ⟨hpause, hrep, ht⟩

/-- An operation that leaves `IDLE` is an accepted trigger, and leads to the first preamble pulse. -/
theorem move_leaves_idle {i : Instr} {s t : State} (h : Move i s t) (hidle : s.phase = .idle)
    (hbusy : t.phase ≠ .idle) : (i = .trigger ∨ ∃ r, i = .writeTrigger r) ∧ t.phase = .preLow := by
  cases h with
  | trigger => exact ⟨.inl rfl, startCycle_phase _ _⟩
  | writeTrigger r => exact ⟨.inr ⟨r, rfl⟩, startCycle_phase Config.hw s⟩
  | reset => exact absurd rfl hbusy
  | advance => exact absurd ((congrArg State.phase (advance_of_idle hidle)).trans hidle) hbusy
  | _ => exact absurd hidle hbusy

/-- An operation that enters `IDLE` is a reset or ends the second `PAUSE`. -/
theorem move_enters_idle {i : Instr} {s t : State} (h : Move i s t) (hbusy : s.phase ≠ .idle)
    (hidle : t.phase = .idle) : i = .reset ∨ (s.phase = .pause ∧ s.rep = true ∧ s.timer = 0) := by
  cases h with
  | reset => exact .inl rfl
  | advance => exact .inr (advance_enters_idle hbusy hidle)
  | trigger => cases hidle
  | writeTrigger => cases hidle
  | _ => exact absurd hidle hbusy

/-- Settles O49: R29's facts at `IDLE`, and what a move can do to the phase; fetching changes no
register. -/
theorem idleIsLeftByTriggerAndEnteredByResetOrTheLastPause :
    Obligations.IdleIsLeftByTriggerAndEnteredByResetOrTheLastPause := by
  intro s t hs hstep
  have hmove : Move s.fetch s.fetched t := step_move hstep
  refine ⟨fun hidle => ?_, move_leaves_idle (s := s.fetched) hmove, move_enters_idle (s := s.fetched) hmove⟩
  obtain ⟨hrep, hidx, htimer, hpin⟩ := hs.1 hidle
  exact ⟨hpin, htimer, hidx, hrep, (busy_eq_false s).2 hidle⟩

end Sys2Proof.Proofs
end

section
/-! SUPPORT. Symbols and composites at the segment level (R112 to R115): the duration of a list of segments,
and the level at each time. -/

namespace Sys2Proof.Proofs

open Sys2Proof.Machine Sys2Proof.Laws

/-! ### Lists of segments joined and repeated (R12) -/

@[simp] theorem totalDur_nil : totalDur [] = 0 := rfl

@[simp] theorem totalDur_cons (g : Seg) (l : List Seg) : totalDur (g :: l) = g.dur + totalDur l := by
  simp [totalDur]

@[simp] theorem totalDur_append (l m : List Seg) : totalDur (l ++ m) = totalDur l + totalDur m := by
  simp [totalDur]

@[simp] theorem repeatSegs_zero (l : List Seg) : repeatSegs 0 l = [] := rfl

theorem repeatSegs_succ (n : Nat) (l : List Seg) : repeatSegs (n + 1) l = l ++ repeatSegs n l := by
  rw [repeatSegs, List.replicate_succ, List.flatten_cons, repeatSegs]

theorem length_repeatSegs (n : Nat) (l : List Seg) : (repeatSegs n l).length = n * l.length := by
  simp [repeatSegs]

theorem totalDur_repeatSegs (n : Nat) (l : List Seg) : totalDur (repeatSegs n l) = n * totalDur l := by
  induction n with
  | zero => simp
  | succ n ih => rw [repeatSegs_succ, totalDur_append, ih, Nat.add_one_mul, Nat.add_comm]

theorem levelAt_append_of_lt {l : List Seg} (m : List Seg) {t : Nat} (h : t < totalDur l) :
    levelAt (l ++ m) t = levelAt l t := by
  induction l generalizing t with
  | nil => simp at h
  | cons g l ih =>
    rw [totalDur_cons] at h
    rw [List.cons_append, levelAt, levelAt]
    split
    · rfl
    · exact ih (by omega)

/-- After a list of segments has been sent, the time counts from the start of the list that follows. -/
theorem levelAt_append_add (l m : List Seg) (t : Nat) : levelAt (l ++ m) (totalDur l + t) = levelAt m t := by
  induction l with
  | nil => simp
  | cons g l ih =>
    rw [List.cons_append, totalDur_cons, levelAt, if_neg (by omega), Nat.add_assoc, Nat.add_sub_cancel_left, ih]

/-- Each repetition shows the levels of the list repeated. -/
theorem levelAt_repeatSegs {l : List Seg} {n p t : Nat} (hp : p < n) (ht : t < totalDur l) :
    levelAt (repeatSegs n l) (p * totalDur l + t) = levelAt l t := by
  induction n generalizing p with
  | zero => omega
  | succ n ih =>
    rw [repeatSegs_succ]
    cases p with
    | zero => rw [Nat.zero_mul, Nat.zero_add, levelAt_append_of_lt _ ht]
    | succ p =>
      rw [Nat.add_one_mul, Nat.add_comm _ (totalDur l), Nat.add_assoc, levelAt_append_add, ih (by omega)]

/-! ### The two symbols -/

theorem totalDur_symSegs (b : Bool) : totalDur (symSegs b) = 2925 := by cases b <;> rfl

/-- Settles O36: the segments of `Sym(0)` and `Sym(1)`; where 1 meets 0 the two LOW halves join. -/
theorem symbolsAreTwoUnequalHalves : Obligations.SymbolsAreTwoUnequalHalves := by
  intro s
  refine ⟨?_, ?_, totalDur_symSegs, by decide⟩
  · rw [exec_bit0]
    rfl
  · rw [exec_bit1]
    rfl

/-! ### The preamble -/

/-- One preamble period: the LOW and the pulse. -/
def pulseSegs : List Seg := [⟨false, 1250⟩, ⟨true, 1750⟩]

theorem preambleSegs_eq : preambleSegs = repeatSegs 12 pulseSegs ++ [⟨false, 3000⟩] := rfl

theorem totalDur_pulseSegs : totalDur pulseSegs = 3000 := rfl

theorem totalDur_pulses : totalDur (repeatSegs 12 pulseSegs) = 36000 := by
  rw [totalDur_repeatSegs, totalDur_pulseSegs]

theorem totalDur_preambleSegs : totalDur preambleSegs = 39000 := by
  rw [preambleSegs_eq, totalDur_append, totalDur_pulses]
  rfl

theorem length_preambleSegs : preambleSegs.length = 25 := by
  rw [preambleSegs_eq, List.length_append, length_repeatSegs]
  rfl

theorem levelAt_pulseSegs {t : Nat} (ht : t < 3000) : levelAt pulseSegs t = decide (1250 ≤ t) := by
  by_cases h : t < 1250
  · simp [pulseSegs, levelAt, h]
  · have hpulse : t - 1250 < 1750 := by omega
    simp [pulseSegs, levelAt, h, hpulse, Nat.not_lt.1 h]

theorem levelAt_preambleSegs_pulse {p t : Nat} (hp : p < 12) (ht : t < 3000) :
    levelAt preambleSegs (3000 * p + t) = decide (1250 ≤ t) := by
  have htotal := totalDur_pulses
  have hperiod := levelAt_repeatSegs (l := pulseSegs) hp ht
  rw [totalDur_pulseSegs, Nat.mul_comm] at hperiod
  rw [preambleSegs_eq, levelAt_append_of_lt _ (by omega), hperiod, levelAt_pulseSegs ht]

theorem levelAt_preambleSegs_gap {t : Nat} (ht : 36000 ≤ t) : levelAt preambleSegs t = false := by
  obtain ⟨u, rfl⟩ := Nat.exists_eq_add_of_le ht
  rw [preambleSegs_eq, ← totalDur_pulses, levelAt_append_add]
  simp [levelAt]

/-- Settles O37: the twelve periods are one pulse repeated, and each shows the pulse's levels. -/
theorem preambleIsTwelvePulsesAndAGap : Obligations.PreambleIsTwelvePulsesAndAGap := by
  refine ⟨preambleSegs, fun s => ?_, rfl, length_preambleSegs, totalDur_preambleSegs, fun p hp t ht => ?_⟩
  · rw [exec_preamble, send]
  · exact levelAt_preambleSegs_pulse hp ht

/-! ### The sync marker -/

theorem levelAt_syncSegs (t : Nat) : levelAt syncSegs t = true ↔ 4200 ≤ t ∧ t < 9900 := by
  have hlevel : levelAt syncSegs t =
      if t < 4200 then false else if t - 4200 < 5700 then true else
        if t - 4200 - 5700 < 5200 then false else false := rfl
  rw [hlevel]
  split_ifs <;> simp only [true_iff, false_iff] <;> omega

/-- From the preamble's gap on, the pin is HIGH exactly in the sync pulse. -/
theorem levelAt_preamble_sync {t : Nat} (ht : 36000 ≤ t) :
    levelAt (preambleSegs ++ syncSegs) t = true ↔ 43200 ≤ t ∧ t < 48900 := by
  have htotal := totalDur_preambleSegs
  by_cases hgap : t < 39000
  · rw [levelAt_append_of_lt _ (by omega), levelAt_preambleSegs_gap ht]
    exact iff_of_false nofun (by omega)
  · obtain ⟨u, rfl⟩ := Nat.exists_eq_add_of_le (Nat.not_lt.1 hgap)
    rw [← htotal, levelAt_append_add, levelAt_syncSegs]
    omega

/-- Settles O38: the three segments, and the one HIGH time they put after the preamble. -/
theorem syncIsLowHighLow : Obligations.SyncIsLowHighLow := by
  refine ⟨syncSegs, fun s => ?_, rfl, rfl, rfl, fun t hhigh ht => ?_, fun t hstart hend => ?_⟩
  · rw [exec_sync, send]
  · exact (levelAt_preamble_sync ht).1 hhigh
  · exact (levelAt_preamble_sync (by omega)).2 ⟨hstart, hend⟩

/-! ### The data bits -/

/-- The symbols of the first `n` bits of a sequence, in order. -/
def bitSegs (b : Nat → Bool) (n : Nat) : List Seg := (List.range n).flatMap fun i => symSegs (b i)

theorem dataSegs_eq (f : Word32) : dataSegs f = bitSegs f.getLsbD 32 := rfl

theorem bitSegs_succ (b : Nat → Bool) (n : Nat) : bitSegs b (n + 1) = bitSegs b n ++ symSegs (b n) := by
  simp [bitSegs, List.range_succ]

theorem length_bitSegs (b : Nat → Bool) (n : Nat) : (bitSegs b n).length = 2 * n := by
  induction n with
  | zero => rfl
  | succ n ih => rw [bitSegs_succ, List.length_append, ih]; rfl

theorem totalDur_bitSegs (b : Nat → Bool) (n : Nat) : totalDur (bitSegs b n) = 2925 * n := by
  induction n with
  | zero => rfl
  | succ n ih => rw [bitSegs_succ, totalDur_append, ih, totalDur_symSegs, Nat.mul_succ]

/-- Bit `i` has the segments `2 * i` and `2 * i + 1`: its level and its inverse. -/
theorem bitSegs_getElem? (b : Nat → Bool) {n i : Nat} (hi : i < n) :
    (bitSegs b n)[2 * i]? = some ⟨b i, 1450⟩ ∧ (bitSegs b n)[2 * i + 1]? = some ⟨!b i, 1475⟩ := by
  induction n with
  | zero => omega
  | succ n ih =>
    have hlength := length_bitSegs b n
    rw [bitSegs_succ]
    rcases Nat.lt_succ_iff_lt_or_eq.1 hi with hlt | rfl
    · rw [List.getElem?_append_left (by omega), List.getElem?_append_left (by omega)]
      exact ih hlt
    · rw [List.getElem?_append_right (by omega), List.getElem?_append_right (by omega), hlength, Nat.sub_self,
        Nat.add_sub_cancel_left]
      exact ⟨rfl, rfl⟩

/-- Settles O39: `DATA` sends the symbols of the 32 bits of `FRAME`. -/
theorem dataSendsTheFrameLowBitFirst : Obligations.DataSendsTheFrameLowBitFirst := by
  intro s
  refine ⟨dataSegs s.frame, ?_, length_bitSegs _ 32, totalDur_bitSegs _ 32, fun i hi => ?_⟩
  · rw [exec_data, send]
  · rw [dataSegs_eq]
    exact bitSegs_getElem? _ hi

/-! ### The composites one after the other -/

/-- Settles O41: three requests, each of which sends its segments after those before; no one of them changes
`FRAME`. -/
theorem compositesSentInOrderAreTheFrame : Obligations.CompositesSentInOrderAreTheFrame := by
  intro s l hstim
  rw [run_succ_of_step (step_eval hstim),
    run_succ_of_step (step_eval (i := .sync) (l := .eval .data :: l) rfl),
    run_succ_of_step (step_eval (i := .data) (l := l) rfl)]
  simp [Host.Core.run, send, txframeSegs]

end Sys2Proof.Proofs
end

section
/-! SUPPORT. The transmission cycle: requests during it have no effect (R131), and its list of segments
(R123, R124). -/

namespace Sys2Proof.Proofs

open Sys2Proof.Machine Sys2Proof.Laws

/-! ### Requests during a cycle (R131) -/

/-- Where a run within a cycle leads depends on the number of its edges only. -/
theorem run_with_edges_of_le_ticksLeft (ps : List Ports) (l : List Event) {s : State}
    (hs : s.PositionOk Config.hw) (hrst : ∀ q ∈ ps, q.rst = false)
    (hlen : ps.length ≤ ticksLeft Config.hw s) :
    Host.Core.run Sys2Proof.core ps.length { s with stim := edges ps ++ l } =
      .next { (advance Config.hw)^[ps.length] s with stim := l } := by
  rw [run_edges_of_le_ticksLeft (s := { s with stim := edges ps ++ l }) ps l hs hrst hlen rfl,
    advance_iterate_with_stim]

/-- Settles O53: both runs are as many advances of the sequencer as they have edges. -/
theorem requestsDoNotDisturbACycle : Obligations.RequestsDoNotDisturbACycle := by
  intro s ps qs l hps hqs hsame hs hlen
  rw [run_with_edges_of_le_ticksLeft ps l hs hps hlen,
    run_with_edges_of_le_ticksLeft qs l hs hqs (hsame ▸ hlen), hsame]

/-! ### The frame (R123) -/

theorem length_preamble_sync : (preambleSegs ++ syncSegs).length = 28 := by
  rw [List.length_append, length_preambleSegs]
  rfl

theorem totalDur_preamble_sync : totalDur (preambleSegs ++ syncSegs) = 54100 := by
  rw [totalDur_append, totalDur_preambleSegs]
  rfl

theorem length_txframeSegs (f : Word32) : (txframeSegs f).length = 92 := by
  rw [txframeSegs, List.length_append, length_preamble_sync, dataSegs_eq, length_bitSegs]

theorem totalDur_txframeSegs (f : Word32) : totalDur (txframeSegs f) = 147700 := by
  rw [txframeSegs, totalDur_append, totalDur_preamble_sync, dataSegs_eq, totalDur_bitSegs]

/-- What comes before the data is the same for every frame. -/
theorem txframeSegs_take (f : Word32) : (txframeSegs f).take 28 = preambleSegs ++ syncSegs :=
  List.take_left' length_preamble_sync

/-- Settles O40: the frame's segments are those of its three composites, of which only the last depends on
the frame. -/
theorem txframeIsPreambleSyncData : Obligations.TxframeIsPreambleSyncData := by
  refine ⟨fun s => ?_, fun f => ⟨length_txframeSegs f, totalDur_txframeSegs f⟩, fun f g => ?_⟩
  · rw [exec_txframe, send, txframeSegs]
  · rw [txframeSegs_take, txframeSegs_take]

/-! ### The cycle (R124) -/

theorem txcycleSegs_eq (f : Word32) : txcycleSegs f = repetitionSegs f ++ repetitionSegs f := by
  rw [txcycleSegs, Proto.nRep, repeatSegs_succ, repeatSegs_succ, repeatSegs_zero, List.append_nil]

theorem length_repetitionSegs (f : Word32) : (repetitionSegs f).length = 93 := by
  rw [repetitionSegs, List.length_append, length_txframeSegs]
  rfl

theorem totalDur_repetitionSegs (f : Word32) : totalDur (repetitionSegs f) = 247700 := by
  rw [repetitionSegs, totalDur_append, totalDur_txframeSegs]
  rfl

/-- Settles O42: the list sent two times is one repetition, the frame and its pause. -/
theorem txcycleIsTwoFramesWithPauses : Obligations.TxcycleIsTwoFramesWithPauses := by
  intro s
  refine ⟨repetitionSegs s.frame, ?_, rfl, ?_, ?_⟩
  · rw [exec_txcycle, send, txcycleSegs_eq]
  · rw [List.length_append, length_repetitionSegs]
  · rw [totalDur_append, totalDur_repetitionSegs]

end Sys2Proof.Proofs
end

section
/-! SUPPORT. What the hardware has in place of exceptions: no step ever stops (R135), one edge acts on
its requests in the order of precedence (R141) and masks them in `BUSY` (R140), and an accepted trigger
enters a cycle (R142). -/

namespace Sys2Proof.Proofs

open Sys2Proof.Machine Sys2Proof.Laws

/-! ### The edge with `rst` (R141) -/

theorem instr_eq_reset {p : Ports} (hrst : p.rst = true) : p.instr = .reset := by
  rw [Ports.instr, hrst, hostInstr]

theorem step_edge_of_rst {s : State} {p : Ports} {l : List Event} (h : s.stim = .edge p :: l)
    (hrst : p.rst = true) : step s = .next (resetRegs Config.hw { s with stim := l }) := by
  rw [step_edge h, instr_eq_reset hrst, exec_reset]

/-! ### The edge in `IDLE`: each request acts on the state before it (R73, R141) -/

theorem instr_eq_writeTrigger {p : Ports} (hrst : p.rst = false) (htrigger : p.trigger = true)
    (hwrite : p.wrValid = true) : p.instr = .writeTrigger p.wr := by
  rw [Ports.instr, hrst, htrigger, hwrite, hostInstr]

/-- The state after an edge in `IDLE`, field by field: the write port decides the Reading, and the trigger
everything else. -/
def acceptRequests (p : Ports) (s : State) : State :=
  { s with
    reading := if p.wrValid then p.wr else s.reading
    frame := if p.trigger then encodeFrame Config.hw s.reading else s.frame
    phase := if p.trigger then .preLow else .idle
    rep := if p.trigger then false else s.rep
    idx := if p.trigger then 0 else s.idx
    timer := if p.trigger then 1249 else s.timer
    pin := if p.trigger then false else s.pin }

/-- In `IDLE` every host operation but `RESET` accepts the requests that select it. -/
theorem exec_instr_of_idle {s : State} {p : Ports} (hidle : s.phase = .idle) (hrst : p.rst = false) :
    exec p.instr s = .next (acceptRequests p s) := by
  cases htrigger : p.trigger <;> cases hwrite : p.wrValid
  · rw [instr_eq_nop hrst htrigger hwrite, exec_nop_of_idle hidle]
    simp [acceptRequests, htrigger, hwrite, ← hidle]
  · rw [instr_eq_write hrst htrigger hwrite, exec_write_of_idle hidle]
    simp [acceptRequests, htrigger, hwrite, storeReading, ← hidle]
  · rw [instr_eq_trigger hrst htrigger hwrite, exec_trigger_of_idle hidle, startCycle_hw]
    simp [acceptRequests, htrigger, hwrite]
  · rw [instr_eq_writeTrigger hrst htrigger hwrite, exec_writeTrigger_of_idle hidle, startCycle_hw]
    simp [acceptRequests, htrigger, hwrite, storeReading]

theorem step_edge_of_idle {s : State} {p : Ports} {l : List Event} (h : s.stim = .edge p :: l)
    (hidle : s.phase = .idle) (hrst : p.rst = false) :
    step s = .next (acceptRequests p { s with stim := l }) := by
  rw [step_edge h, exec_instr_of_idle (s := { s with stim := l }) hidle hrst]

/-! ### Precedence and masking -/

/-- Settles O8: `rst` first, then `IDLE`, then the advance, each with the lemma of its edge. -/
theorem edgeActsOnRequestsInOrderOfPrecedence : Obligations.EdgeActsOnRequestsInOrderOfPrecedence := by
  intro s p l h
  split
  case isTrue hrst =>
    rw [step_edge_of_rst h hrst]
    rfl
  case isFalse hrst =>
    rw [Bool.not_eq_true] at hrst
    split
    case isTrue hidle =>
      rw [step_edge_of_idle h hidle hrst]
      rfl
    case isFalse hbusy => rw [step_edge_of_busy h hbusy hrst]

/-- Settles O9: a `BUSY` edge is the advance whatever its ports; an `IDLE` edge accepts its requests; and
`rst` resets from every state. -/
theorem requestsAreMaskedExactlyInBusy : Obligations.RequestsAreMaskedExactlyInBusy := by
  refine ⟨fun s p q l hbusy hp hq => ?_, fun s p l hidle hrst => ?_, fun s p l hrst => ?_⟩
  · have hedge (r : Ports) (hr : r.rst = false) :
        step { s with stim := .edge r :: l } = .next (advance Config.hw { s with stim := l }) := by
      rw [step_edge rfl, exec_instr_of_busy (s := { s with stim := l }) hbusy hr]
    rw [hedge p hp, hedge q hq]
  · exact ⟨_, step_edge_of_idle rfl hidle hrst, fun hwrite => if_pos hwrite,
      fun htrigger => ⟨if_pos htrigger, if_pos htrigger⟩⟩
  · exact ⟨_, step_edge_of_rst rfl hrst, rfl, rfl, rfl⟩

/-! ### Entry into a cycle (R142) -/

/-- What a request asks for makes no difference in `BUSY`. -/
theorem request_masked {c : Config} {s : State} (hbusy : s.phase ≠ .idle) (act act' : State → State) :
    request c s act = request c s act' := by
  rw [request_of_busy hbusy, request_of_busy hbusy]

theorem startCycle_busy (c : Config) (s : State) : (startCycle c s).busy = true :=
  (busy_eq_true _).2 Phase.noConfusion

/-- Settles O14: an accepted trigger is the start of a cycle, and the state it enters is `BUSY` and masks
every request. -/
theorem acceptedTriggerEntersTheCycle : Obligations.AcceptedTriggerEntersTheCycle := by
  intro s hidle
  have hbusy := startCycle_busy Config.hw s
  have hmasked := request_masked (c := Config.hw) ((busy_eq_true _).1 hbusy)
  refine ⟨_, exec_trigger_of_idle hidle, startCycle_hw s, hbusy, ?_, fun r => ⟨?_, ?_, ?_⟩⟩
  · rw [State.wrReady, hbusy, Bool.not_true]
  · rw [exec_write, exec_nop, hmasked _ id]
  · rw [exec_trigger, exec_nop, hmasked _ id]
  · rw [exec_writeTrigger, exec_nop, hmasked _ id]

/-! ### Nothing faults and nothing is refused (R135) -/

theorem exec_next (i : Instr) (s : State) : ∃ t, exec i s = .next t := by
  obtain ⟨t, ht, -⟩ := exec_move i s
  exact ⟨t, ht⟩

theorem safeFor (k : Nat) (s : State) : s.SafeFor k := by
  induction k generalizing s with
  | zero => exact ⟨s, rfl⟩
  | succ k ih =>
    obtain ⟨t, ht⟩ : ∃ t, step s = .next t := exec_next _ _
    rw [State.SafeFor, run_succ_of_step ht]
    exact ih t

/-- Settles O7: the type of faults has no value, every operation makes a move, and so every run goes on. -/
theorem everyStepIsANextState : Obligations.EveryStepIsANextState :=
  ⟨nofun, exec_next, safeFor⟩

end Sys2Proof.Proofs
end

section
/-! SUPPORT. The first edge after a reset (R155): the reset state is in `IDLE`, so the edge accepts what it
requests. -/

namespace Sys2Proof.Proofs

open Sys2Proof.Machine Sys2Proof.Laws

/-- Settles O11: the reset state is an `IDLE` state, and its edge accepts each request by itself, whatever
the other one. -/
theorem firstEdgeAfterResetAcceptsRequests : Obligations.FirstEdgeAfterResetAcceptsRequests := by
  refine ⟨rfl, rfl, fun p l hrst => ⟨_, step_edge_of_idle rfl rfl hrst, ?_, ?_, ?_, ?_⟩⟩
  · exact fun hwrite => if_pos hwrite
  · exact fun hnoWrite => if_neg (ne_true_of_eq_false hnoWrite)
  · exact fun htrigger => ⟨if_pos htrigger, if_pos htrigger⟩
  · exact fun hnoTrigger => if_neg (ne_true_of_eq_false hnoTrigger)

end Sys2Proof.Proofs
end

section
/-! SUPPORT. The decoder and the encoder against each other (`30_encoding.md` rules R50 to R67), and the
words of the opcode table placed for the next step. -/

namespace Sys2Proof.Proofs

open Sys2Proof.Machine Sys2Proof.Laws

/-! ### Decoding an encoded operation -/

theorem decode_phase_code (p : Phase) : decode ⟨.phase, p.code⟩ = .ok p.instr := by cases p <;> rfl

theorem decode_frame32_word (f : Frame32) : decode ⟨.frame32, f.word.toNat⟩ = .ok (.frame32 f) := by
  have hfits : ¬ 2 ^ 32 ≤ f.word.toNat := Nat.not_le.2 f.word.isLt
  have hzero : ¬ (BitVec.ofNat 32 f.word.toNat &&& frameZeroMask ≠ 0) := by
    rw [BitVec.ofNat_toNat, BitVec.setWidth_eq, not_not]
    exact Frame32.word_zero f
  rw [decode, decodeFrame32, if_neg hfits, if_neg hzero, BitVec.ofNat_toNat, BitVec.setWidth_eq,
    Frame32.ofWord_word]

theorem decode_reading_word (r : Reading) : decode ⟨.reading, r.word.toNat⟩ = .ok (.reading r) := by
  have hfits : ¬ 2 ^ 49 ≤ r.word.toNat := Nat.not_le.2 r.word.isLt
  rw [decode, decodeReading, if_neg hfits, BitVec.ofNat_toNat, BitVec.setWidth_eq, Reading.ofWord_word]

/-- A host word of encoded lines decodes to the operation of those lines, with the Reading that was
encoded. -/
theorem decode_hostCode_reading {n : Nat} (hn : n < 8) (r : Reading) :
    decode (hostCode n r.word) = .ok (hostInstr (n.testBit 2) (n.testBit 1) (n.testBit 0) r) := by
  rw [decode_hostCode hn, Reading.ofWord_word]

/-- Settles O2: each operation that has a word is read back by the decoder of its format. -/
theorem encodeThenDecodeGivesItBack : Obligations.EncodeThenDecodeGivesItBack := by
  intro i k h
  cases i with
  | checksum | encode | preamble | sync | data | txframe | txcycle => cases h
  | reset => cases h; exact decode_hostCode (n := 4) (by decide) 0
  | nop => cases h; exact decode_hostCode (n := 0) (by decide) 0
  | trigger => cases h; exact decode_hostCode (n := 2) (by decide) 0
  | write r => cases h; exact decode_hostCode_reading (n := 1) (by decide) r
  | writeTrigger r => cases h; exact decode_hostCode_reading (n := 3) (by decide) r
  | bit0 | bit1 => cases h; rfl
  | frame32 f => cases h; exact decode_frame32_word f
  | reading r => cases h; exact decode_reading_word r
  | idle | preLow | preHigh | preGap | syncLow1 | syncHigh | syncLow2 | bitFirst | bitSecond | pause =>
    cases h
    exact decode_phase_code _

/-! ### Encoding a decoded operation -/

theorem encode_phase (p : Phase) : encode p.instr = some ⟨.phase, p.code⟩ := by cases p <;> rfl

/-- A code that names a phase is that phase's code (R25). -/
theorem code_of_phaseOfCode {w : Nat} {p : Phase} (h : phaseOfCode w = some p) : p.code = w := by
  unfold phaseOfCode at h
  split at h <;> cases h <;> rfl

theorem encode_of_decodePhase {w : Nat} {i : Instr} (h : decodePhase w = .ok i) :
    encode i = some ⟨.phase, w⟩ := by
  unfold decodePhase at h
  split at h
  · cases h
  · split at h
    next p hp =>
      cases h
      rw [encode_phase, code_of_phaseOfCode hp]
    next => cases h

theorem encode_of_decodeSymbol {w : Nat} {i : Instr} (h : decodeSymbol w = .ok i) :
    encode i = some ⟨.symbol, w⟩ := by
  unfold decodeSymbol at h
  split at h <;> cases h <;> rfl

theorem encode_of_decodeFrame32 {w : Nat} {i : Instr} (h : decodeFrame32 w = .ok i) :
    encode i = some ⟨.frame32, w⟩ := by
  unfold decodeFrame32 at h
  split at h
  · cases h
  next hfits =>
    split at h
    · cases h
    next hzero =>
      cases h
      rw [encode, Frame32.word_ofWord _ (not_not.1 hzero), BitVec.toNat_ofNat,
        Nat.mod_eq_of_lt (Nat.not_le.1 hfits)]

theorem encode_of_decodeReading {w : Nat} {i : Instr} (h : decodeReading w = .ok i) :
    encode i = some ⟨.reading, w⟩ := by
  unfold decodeReading at h
  split at h
  · cases h
  next hfits =>
    cases h
    rw [encode, Reading.word_ofWord, BitVec.toNat_ofNat, Nat.mod_eq_of_lt (Nat.not_le.1 hfits)]

/-- Settles O3: in each of the four formats the decoder keeps every bit of a word it accepts. -/
theorem decodeThenEncodeGivesTheWordBack : Obligations.DecodeThenEncodeGivesTheWordBack := by
  rintro ⟨fmt, w⟩ i hfmt h
  cases fmt with
  | hostcmd => exact absurd rfl hfmt
  | phase => exact encode_of_decodePhase h
  | symbol => exact encode_of_decodeSymbol h
  | frame32 => exact encode_of_decodeFrame32 h
  | reading => exact encode_of_decodeReading h

/-! ### Rejected words (R50, R59, R65) -/

theorem decode_phase_reserved {w : Nat} (hlow : 10 ≤ w) (hhigh : w ≤ 15) :
    decode ⟨.phase, w⟩ = .error (.reservedPhase w) := by
  interval_cases w <;> rfl

theorem decode_frame32_reserved {w : Word32} (h : w &&& frameZeroMask ≠ 0) :
    decode ⟨.frame32, w.toNat⟩ = .error (.reservedFrameBits w.toNat) := by
  have hfits : ¬ 2 ^ 32 ≤ w.toNat := Nat.not_le.2 w.isLt
  rw [decode, decodeFrame32, if_neg hfits, BitVec.ofNat_toNat, BitVec.setWidth_eq, if_pos h]

theorem decode_tooWide {fmt : Format} {w : Nat} (h : 2 ^ fmt.width ≤ w) :
    decode ⟨fmt, w⟩ = .error (.tooWide fmt w) := by
  cases fmt with
  | hostcmd | phase | frame32 | reading => exact if_pos h
  | symbol =>
    obtain ⟨v, rfl⟩ : ∃ v, w = v + 2 := Nat.exists_eq_add_of_le' h
    rfl

/-- Settles O4: the reserved phase codes, the reserved frame bits, and the width of each format. -/
theorem reservedWordsAreRejected : Obligations.ReservedWordsAreRejected :=
  ⟨fun _ => decode_phase_reserved, fun _ => decode_frame32_reserved, fun _ _ => decode_tooWide⟩

/-! ### A word of the opcode table placed for the next step -/

theorem withFetchWord_of_decode {n w : Nat} {i : Instr} (h : decodeTableWord n w = some i) (s : State) :
    s.withFetchWord n w = s.place i := by
  rw [State.withFetchWord, h]

/-- A host operation is placed on the ports that select it, a clockless one as a request by name. -/
theorem step_place_of_not_phase {i : Instr} (h : i.phase? = none) (s : State) :
    step (s.place i) = exec i s := by
  cases hports : hostPorts i with
  | some p =>
    rw [State.place, h, hports, step_edge rfl, hostPorts_instr hports]
  | none => rw [State.place, h, hports, step_eval rfl]

/-- A `NOP` edge does what the operation of the selected phase does; in `IDLE` neither does anything. -/
theorem exec_nop_eq_exec_phase (s : State) : exec .nop s = exec s.phase.instr s := by
  rw [exec_phase_of_selected rfl]
  by_cases hidle : s.phase = .idle
  · rw [exec_nop_of_idle hidle, advance_of_idle hidle]
  · rw [exec_nop, request_of_busy hidle]

theorem step_place_phase (p : Phase) (s : State) :
    step (s.place p.instr) = exec p.instr { s with phase := p } := by
  have hplace : s.place p.instr = { s with phase := p, stim := .edge .quiet :: s.stim } := by
    cases p <;> rfl
  rw [hplace, step_edge rfl, instr_eq_nop rfl rfl rfl]
  exact exec_nop_eq_exec_phase _

/-- Settles O6: the word places the operation that the decoder reads, and the next step runs it. -/
theorem placedTableWordIsRun : Obligations.PlacedTableWordIsRun := by
  intro s n w i hdecode
  rw [withFetchWord_of_decode hdecode]
  refine ⟨fun h => step_place_of_not_phase h s, fun p h => ?_⟩
  rw [instr_of_phase h]
  exact step_place_phase p s

end Sys2Proof.Proofs
end

section
/-! SUPPORT. R29's facts as an invariant: they hold after reset and every operation keeps them. -/

namespace Sys2Proof.Proofs

open Sys2Proof.Machine Sys2Proof.Laws

/-! ### Entry into `IDLE` and into a cycle -/

theorem resetRegs_positionOk (c : Config) (s : State) : (resetRegs c s).PositionOk c := by
  refine (positionOk_iff c _).2 ⟨⟨fun _ => ⟨rfl, rfl⟩, fun _ => Nat.zero_le 11, fun _ => rfl⟩, fun _ => rfl,
    fun hbusy => absurd rfl hbusy, rfl⟩

theorem startCycle_positionOk {c : Config} (hc : c.wf = true) (s : State) : (startCycle c s).PositionOk c :=
  enter_positionOk hc _ ⟨nofun, fun _ => Nat.zero_le 11, fun _ => rfl⟩

/-- Every operation keeps R29's facts. -/
theorem move_positionOk {i : Instr} {s t : State} (h : Move i s t) (hs : s.PositionOk Config.hw) :
    t.PositionOk Config.hw := by
  cases h with
  | reset => exact resetRegs_positionOk _ s
  | advance => exact advance_positionOk hw_wf hs
  | trigger => exact startCycle_positionOk hw_wf s
  | writeTrigger r => exact startCycle_positionOk hw_wf s
  | _ => exact hs

/-- Settles O46: fetching changes no register, and the fetched operation keeps the facts. -/
theorem stepKeepsThePositionGood : Obligations.StepKeepsThePositionGood := by
  intro s t hs hstep
  have hfetched : s.fetched.PositionOk Config.hw := hs
  exact move_positionOk (step_move hstep) hfetched

/-- Settles O45: the reset state is what `RESET` makes of it, and its `FRAME` encodes its Reading. -/
theorem resetStateIsGood : Obligations.ResetStateIsGood :=
  ⟨resetRegs_positionOk Config.hw State.reset, State.reset.reading, encodeFrame_reset_reading.symm⟩

end Sys2Proof.Proofs
end

section
/-! SUPPORT. The checksum of every value: its ranges (R79), and single-bit changes (R82). The frames of the
encoder are well-formed (R66, R97). -/

namespace Sys2Proof.Proofs

open Sys2Proof.Machine Sys2Proof.Laws

/-! ### Ranges of the sum (R79) -/

/-- Settles O18: the fold subtracts 255 for each carry, and only 511 folds to 256, which the truncation
makes 0. -/
theorem checksumByRangesOfTheSum : Obligations.ChecksumByRangesOfTheSum := by
  intro d
  have hle := byteSum_le d
  have hfold := checksum_toNat d
  refine ⟨hle, fun h => ?_, fun h h' => ?_, fun h => ?_, fun h => ?_⟩
  case refine_3 =>
    apply BitVec.eq_of_toNat_eq
    rw [hfold, h]
    rfl
  all_goals omega

/-! ### Single-bit changes (R82) -/

/-- Two sums that differ by one bit of a byte fold to different checksums: the fold keeps the sum modulo 255,
but for 511, and no power of two below 256 is a multiple of 255. -/
theorem fold_ne_of_add_two_pow {s k : Nat} (hk : k < 8) (hle : s + 2 ^ k ≤ 765) :
    (s / 256 + s % 256) % 256 ≠ ((s + 2 ^ k) / 256 + (s + 2 ^ k) % 256) % 256 := by
  interval_cases k <;> omega

theorem checksum_ne_of_byteSum {d e : Word32} {k : Nat} (hk : k < 8)
    (h : byteSum e = byteSum d + 2 ^ k ∨ byteSum d = byteSum e + 2 ^ k) : checksum e ≠ checksum d := by
  have hd := byteSum_le d
  have he := byteSum_le e
  intro heq
  have hsame := congrArg BitVec.toNat heq
  rw [checksum_toNat, checksum_toNat] at hsame
  rcases h with h | h
  · rw [h] at hsame he
    exact fold_ne_of_add_two_pow hk he hsame.symm
  · rw [h] at hsame hd
    exact fold_ne_of_add_two_pow hk hd hsame

/-- Flipping a bit that is 0 adds its weight. -/
theorem toNat_xor_twoPow_of_clear {n k : Nat} (hk : k < n) {x : BitVec n} (hbit : x.getLsbD k = false) :
    (x ^^^ BitVec.twoPow n k).toNat = x.toNat + 2 ^ k := by
  have hdisjoint : x &&& BitVec.twoPow n k = 0#n := by
    apply BitVec.eq_of_getLsbD_eq
    intro i _
    by_cases hik : k = i
    · simp [← hik, hbit]
    · simp [hik]
  have hor : x ^^^ BitVec.twoPow n k = x + BitVec.twoPow n k := by
    rw [BitVec.add_eq_or_of_and_eq_zero _ _ hdisjoint]
    apply BitVec.eq_of_getLsbD_eq
    intro i _
    by_cases hik : k = i
    · simp [← hik, hbit]
    · simp [hik]
  rw [hor, BitVec.toNat_add_of_and_eq_zero hdisjoint, BitVec.toNat_twoPow,
    Nat.mod_eq_of_lt (Nat.pow_lt_pow_right (by omega) hk)]

/-- Flipping a bit adds its weight or takes it away. -/
theorem toNat_xor_twoPow {n k : Nat} (hk : k < n) (x : BitVec n) :
    (x ^^^ BitVec.twoPow n k).toNat = x.toNat + 2 ^ k ∨ x.toNat = (x ^^^ BitVec.twoPow n k).toNat + 2 ^ k := by
  cases hbit : x.getLsbD k with
  | false => exact .inl (toNat_xor_twoPow_of_clear hk hbit)
  | true =>
    have hclear : (x ^^^ BitVec.twoPow n k).getLsbD k = false := by simp [hbit, hk]
    have hback := toNat_xor_twoPow_of_clear hk hclear
    rw [BitVec.xor_assoc, BitVec.xor_self, BitVec.xor_zero] at hback
    exact .inr hback

/-- The byte at offset `o` after a change of its bit `k`. -/
theorem byte_flip_inside (d : Word32) {o k : Nat} (ho : o ≤ 24) (hk : k < 8) :
    (d ^^^ (1#32 <<< (o + k))).extractLsb' o 8 = d.extractLsb' o 8 ^^^ BitVec.twoPow 8 k := by
  apply BitVec.eq_of_getLsbD_eq
  intro i hi
  have hin : o + k < 32 := by omega
  simp [hi, ← BitVec.twoPow_eq, hin, eq_comm]

/-- A byte after a change of a bit outside it. -/
theorem byte_flip_outside (d : Word32) {o j : Nat} (hj : j < o ∨ o + 8 ≤ j) :
    (d ^^^ (1#32 <<< j)).extractLsb' o 8 = d.extractLsb' o 8 := by
  apply BitVec.eq_of_getLsbD_eq
  intro i hi
  have hother : j ≠ o + i := by omega
  simp [hi, ← BitVec.twoPow_eq, hother]

/-- A change of one bit of the data portion changes the byte sum by the bit's weight in its byte. -/
theorem byteSum_flip (d : Word32) {j : Nat} (hj : j < 24) : ∃ k < 8,
    byteSum (d ^^^ (1#32 <<< j)) = byteSum d + 2 ^ k ∨ byteSum d = byteSum (d ^^^ (1#32 <<< j)) + 2 ^ k := by
  have hplace : ∃ k < 8, j = 0 + k ∨ j = 8 + k ∨ j = 16 + k := ⟨j % 8, by omega, by omega⟩
  obtain ⟨k, hk, hplace⟩ := hplace
  refine ⟨k, hk, ?_⟩
  have hbyte (o : Nat) := toNat_xor_twoPow hk (d.extractLsb' o 8)
  have hlow := hbyte 0
  have hmid := hbyte 8
  have hhigh := hbyte 16
  simp only [byteSum]
  rcases hplace with rfl | rfl | rfl
  all_goals
    rw [byte_flip_inside d (by omega) hk, byte_flip_outside d (by omega), byte_flip_outside d (by omega)]
    omega

/-- Settles O19: below 24 the byte sum changes by a power of two, which the fold tells apart; from 24 on no
bit that is read changes. -/
theorem checksumDetectsEverySingleBitChange : Obligations.ChecksumDetectsEverySingleBitChange := by
  intro d j
  constructor
  · intro hj
    obtain ⟨k, hk, hsum⟩ := byteSum_flip d hj
    exact checksum_ne_of_byteSum hk hsum
  · intro hj _
    refine checksum_congr fun i hi => ?_
    have hother : j ≠ i := by omega
    simp [← BitVec.twoPow_eq, hother]

/-! ### Frames of the encoder (R66, R97) -/

theorem frameFields_digitsOk (r : Reading) : (frameFields Config.hw r).digitsOk = true := by
  have hmag := sentMagnitude_le r.temperature
  have htens := digitTens_toNat hmag
  have hunits := digitUnits_toNat (sentMagnitude Config.hw r.temperature)
  have htenths := digitTenths_toNat (sentMagnitude Config.hw r.temperature)
  simp only [Frame32.digitsOk, frameFields, dataFields, htens, hunits, htenths, Bool.and_eq_true,
    decide_eq_true_eq]
  omega

/-- The three digits write the magnitude. -/
theorem frameFields_magnitudeOk (r : Reading) : (frameFields Config.hw r).magnitudeOk = true := by
  have hmag := sentMagnitude_le r.temperature
  simp only [Frame32.magnitudeOk, frameFields, dataFields, digitTens_toNat hmag, digitUnits_toNat,
    digitTenths_toNat, decide_eq_true_eq]
  omega

theorem frameFields_checksumOk (c : Config) (r : Reading) : (frameFields c r).checksumOk = true := by
  have hframe : checksum (frameFields c r).word = checksum (dataFields c r).word :=
    (congrArg checksum (encodeFrame_eq_or c r)).trans (checksum_or_shiftLeft _ _)
  exact decide_eq_true hframe.symm

theorem frameFields_wf (r : Reading) : (frameFields Config.hw r).wf = true := by
  rw [Frame32.wf, frameFields_digitsOk, frameFields_magnitudeOk, frameFields_checksumOk]
  rfl

/-- Settles O27: the frame is the word of the encoder's fields, which are read back from it and are
well-formed. -/
theorem encodedFramesAreWellFormed : Obligations.EncodedFramesAreWellFormed := by
  intro r
  have hback : Frame32.ofWord (encodeFrame Config.hw r) = frameFields Config.hw r := Frame32.ofWord_word _
  rw [hback]
  exact ⟨Frame32.word_zero _, frameFields_wf r, rfl⟩

end Sys2Proof.Proofs
end

section
/-! SUPPORT. The trace against its table (R126): the segments of a cycle, where they start, and the level
inside them. -/

namespace Sys2Proof.Proofs

open Sys2Proof.Machine Sys2Proof.Laws

/-! ### Segments and starts in a repeated list and in the data -/

theorem repeatSegs_getElem? {n p j : Nat} {l : List Seg} (hp : p < n) (hj : j < l.length) :
    (repeatSegs n l)[p * l.length + j]? = l[j]? := by
  induction n generalizing p with
  | zero => omega
  | succ n ih =>
    rw [repeatSegs_succ]
    cases p with
    | zero => rw [Nat.zero_mul, Nat.zero_add, List.getElem?_append_left hj]
    | succ p =>
      rw [Nat.add_one_mul, Nat.add_comm _ l.length, Nat.add_assoc,
        List.getElem?_append_right (Nat.le_add_right _ _), Nat.add_sub_cancel_left, ih (by omega)]

theorem take_repeatSegs {n p : Nat} (l : List Seg) (hp : p ≤ n) :
    (repeatSegs n l).take (p * l.length) = repeatSegs p l := by
  obtain ⟨m, rfl⟩ := Nat.exists_eq_add_of_le hp
  have hsplit : repeatSegs (p + m) l = repeatSegs p l ++ repeatSegs m l := by
    rw [repeatSegs, List.replicate_add, List.flatten_append, repeatSegs, repeatSegs]
  rw [hsplit, List.take_left' (length_repeatSegs p l)]

theorem take_bitSegs (b : Nat → Bool) {n i : Nat} (hi : i ≤ n) : (bitSegs b n).take (2 * i) = bitSegs b i := by
  induction n with
  | zero =>
    obtain rfl : i = 0 := by omega
    rfl
  | succ n ih =>
    rcases Nat.le_succ_iff.1 hi with hle | rfl
    · rw [bitSegs_succ, List.take_append_of_le_length (by rw [length_bitSegs]; omega), ih hle]
    · rw [← length_bitSegs b (n + 1), List.take_length]

/-! ### Segments and starts in a cycle -/

theorem txcycleSegs_getElem?_of_lt (f : Word32) {j : Nat} (hj : j < 93) :
    (txcycleSegs f)[j]? = (repetitionSegs f)[j]? := by
  rw [txcycleSegs_eq, List.getElem?_append_left (by rw [length_repetitionSegs]; exact hj)]

theorem txcycleSegs_getElem?_add (f : Word32) (j : Nat) :
    (txcycleSegs f)[j + 93]? = (repetitionSegs f)[j]? := by
  rw [txcycleSegs_eq, List.getElem?_append_right (by rw [length_repetitionSegs]; omega), length_repetitionSegs,
    Nat.add_sub_cancel]

/-- What a repetition sends before its data is the preamble and the sync marker. -/
theorem repetitionSegs_eq (f : Word32) :
    repetitionSegs f = (preambleSegs ++ syncSegs) ++ (bitSegs f.getLsbD 32 ++ [⟨false, 100000⟩]) :=
  List.append_assoc _ _ _

theorem length_pulses : (repeatSegs 12 pulseSegs).length = 24 := length_repeatSegs 12 pulseSegs

theorem repetitionSegs_getElem?_preamble (f : Word32) {p j : Nat} (hp : p < 12) (hj : j < 2) :
    (repetitionSegs f)[2 * p + j]? = pulseSegs[j]? := by
  have hlength := length_preambleSegs
  have hpulses := length_pulses
  have hpulse := repeatSegs_getElem? (l := pulseSegs) hp hj
  rw [Nat.mul_comm p] at hpulse
  rw [repetitionSegs_eq, List.append_assoc, List.getElem?_append_left (by omega), preambleSegs_eq,
    List.getElem?_append_left (by omega)]
  exact hpulse

theorem repetitionSegs_getElem?_data (f : Word32) {i j : Nat} (hi : i < 32) (hj : j < 2) :
    (repetitionSegs f)[28 + (2 * i + j)]? = (bitSegs f.getLsbD 32)[2 * i + j]? := by
  have hlength := length_preamble_sync
  have hbits := length_bitSegs f.getLsbD 32
  rw [repetitionSegs_eq, List.getElem?_append_right (by omega), hlength, Nat.add_sub_cancel_left,
    List.getElem?_append_left (by omega)]

theorem txcycleSegs_take (f : Word32) {k : Nat} (hk : k ≤ 93) :
    (txcycleSegs f).take k = (repetitionSegs f).take k := by
  rw [txcycleSegs_eq, List.take_append_of_le_length (by rw [length_repetitionSegs]; exact hk)]

/-- The start of a preamble pulse. -/
theorem totalDur_take_preamble (f : Word32) {p : Nat} (hp : p < 12) :
    totalDur ((txcycleSegs f).take (2 * p)) = 3000 * p := by
  have hlength := length_preambleSegs
  have hpulses := length_pulses
  have htake : (repeatSegs 12 pulseSegs).take (p * 2) = repeatSegs p pulseSegs := take_repeatSegs pulseSegs hp.le
  rw [txcycleSegs_take f (by omega), repetitionSegs_eq, List.append_assoc,
    List.take_append_of_le_length (by omega), preambleSegs_eq, List.take_append_of_le_length (by omega),
    Nat.mul_comm, htake, totalDur_repeatSegs, totalDur_pulseSegs, Nat.mul_comm]

/-- The start of a data bit; that of the pause stands where bit 32 would. -/
theorem totalDur_take_data (f : Word32) {i : Nat} (hi : i ≤ 32) :
    totalDur ((txcycleSegs f).take (28 + 2 * i)) = 54100 + 2925 * i := by
  have hbits := length_bitSegs f.getLsbD 32
  rw [txcycleSegs_take f (by omega), repetitionSegs_eq, ← length_preamble_sync, List.take_length_add_append,
    List.take_append_of_le_length (by omega), take_bitSegs _ hi, totalDur_append, totalDur_preamble_sync,
    totalDur_bitSegs]

theorem txcycleSegs_getElem?_bit (f : Word32) {i : Nat} (hi : i < 32) :
    (txcycleSegs f)[28 + 2 * i]? = some ⟨f.getLsbD i, 1450⟩ ∧
      (txcycleSegs f)[29 + 2 * i]? = some ⟨!f.getLsbD i, 1475⟩ := by
  have hnext : 29 + 2 * i = 28 + (2 * i + 1) := by omega
  rw [hnext, txcycleSegs_getElem?_of_lt f (by omega), txcycleSegs_getElem?_of_lt f (by omega),
    repetitionSegs_getElem?_data f hi (j := 1) (by omega)]
  have hfirst := repetitionSegs_getElem?_data f hi (j := 0) (by omega)
  rw [Nat.add_zero] at hfirst
  rw [hfirst]
  exact bitSegs_getElem? f.getLsbD hi

/-- Settles O59: the segments and starts of the first repetition by its three parts, and the second
repetition is the same list. -/
theorem traceIsTheTable : Obligations.TraceIsTheTable := by
  intro f
  have hlength := length_repetitionSegs f
  refine ⟨?_, fun j hj => ?_, fun p hp => ⟨?_, ?_, totalDur_take_preamble f hp⟩, rfl, rfl, rfl, rfl,
    fun i hi => ?_, ?_, totalDur_take_data f (i := 32) le_rfl, ?_⟩
  · rw [txcycleSegs_eq, List.length_append, hlength]
  · rw [txcycleSegs_getElem?_add, txcycleSegs_getElem?_of_lt f hj]
  · rw [txcycleSegs_getElem?_of_lt f (by omega)]
    exact repetitionSegs_getElem?_preamble f hp (j := 0) (by omega)
  · rw [txcycleSegs_getElem?_of_lt f (by omega)]
    exact repetitionSegs_getElem?_preamble f hp (j := 1) (by omega)
  · obtain ⟨hfirst, hsecond⟩ := txcycleSegs_getElem?_bit f hi
    exact ⟨hfirst, hsecond, totalDur_take_data f hi.le⟩
  · rw [txcycleSegs_getElem?_of_lt f (by omega), repetitionSegs,
      List.getElem?_append_right (length_txframeSegs f).le, length_txframeSegs]
    rfl
  · rw [txcycleSegs_take f le_rfl, ← hlength, List.take_length, totalDur_repetitionSegs]

/-! ### The level at each time of a frame -/

theorem levelAt_symSegs (b : Bool) {u : Nat} (hu : u < 2925) :
    levelAt (symSegs b) u = if u < 1450 then b else !b := by
  have hlevel : levelAt (symSegs b) u =
      if u < 1450 then b else if u - 1450 < 1475 then !b else false := rfl
  rw [hlevel, if_pos (c := u - 1450 < 1475) (by omega)]

/-- The two halves of each bit. -/
theorem levelAt_bitSegs (b : Nat → Bool) {n i u : Nat} (hi : i < n) (hu : u < 2925) :
    levelAt (bitSegs b n) (2925 * i + u) = if u < 1450 then b i else !b i := by
  induction n with
  | zero => omega
  | succ n ih =>
    have htotal := totalDur_bitSegs b n
    rw [bitSegs_succ]
    rcases Nat.lt_succ_iff_lt_or_eq.1 hi with hlt | rfl
    · rw [levelAt_append_of_lt _ (by omega), ih hlt]
    · rw [← htotal, levelAt_append_add, levelAt_symSegs _ hu]

theorem levelAt_txframeSegs_of_lt (f : Word32) {t : Nat} (ht : t < 54100) :
    levelAt (txframeSegs f) t = levelAt (preambleSegs ++ syncSegs) t :=
  levelAt_append_of_lt _ (totalDur_preamble_sync ▸ ht)

theorem levelAt_txframeSegs_data (f : Word32) {i u : Nat} (hi : i < 32) (hu : u < 2925) :
    levelAt (txframeSegs f) (54100 + (2925 * i + u)) =
      if u < 1450 then f.getLsbD i else !f.getLsbD i := by
  rw [txframeSegs, ← totalDur_preamble_sync, levelAt_append_add, dataSegs_eq, levelAt_bitSegs _ hi hu]

/-! ### The level at each place of a cycle -/

theorem levelAt_repetitionSegs_of_lt (f : Word32) {t : Nat} (ht : t < 147700) :
    levelAt (repetitionSegs f) t = levelAt (txframeSegs f) t :=
  levelAt_append_of_lt _ (totalDur_txframeSegs f ▸ ht)

theorem levelAt_repetitionSegs_pulse (f : Word32) {p t : Nat} (hp : p < 12) (ht : t < 3000) :
    levelAt (repetitionSegs f) (3000 * p + t) = decide (1250 ≤ t) := by
  have htotal := totalDur_preambleSegs
  rw [levelAt_repetitionSegs_of_lt f (by omega), levelAt_txframeSegs_of_lt f (by omega),
    levelAt_append_of_lt _ (by omega), levelAt_preambleSegs_pulse hp ht]

/-- From the preamble's gap to the data, the pin is HIGH exactly in the sync pulse. -/
theorem levelAt_repetitionSegs_sync (f : Word32) {t : Nat} (hstart : 36000 ≤ t) (hend : t < 54100) :
    levelAt (repetitionSegs f) t = decide (43200 ≤ t ∧ t < 48900) := by
  rw [levelAt_repetitionSegs_of_lt f (by omega), levelAt_txframeSegs_of_lt f hend, Bool.eq_iff_iff,
    levelAt_preamble_sync hstart, decide_eq_true_eq]

theorem levelAt_repetitionSegs_data (f : Word32) {i u : Nat} (hi : i < 32) (hu : u < 2925) :
    levelAt (repetitionSegs f) (54100 + (2925 * i + u)) =
      if u < 1450 then f.getLsbD i else !f.getLsbD i := by
  rw [levelAt_repetitionSegs_of_lt f (by omega), levelAt_txframeSegs_data f hi hu]

/-- The pin is LOW in the pause, and there is nothing after it. -/
theorem levelAt_repetitionSegs_pause (f : Word32) (u : Nat) :
    levelAt (repetitionSegs f) (147700 + u) = false := by
  rw [repetitionSegs, ← totalDur_txframeSegs f, levelAt_append_add]
  simp [levelAt]

/-- Inside a segment of a repetition the level is that of the segment's position. -/
theorem levelAt_repetitionSegs_position (f : Word32) {q : Position} (hq : GoodPosition q)
    (hbusy : q.phase ≠ .idle) {u : Nat} (hu : u < dur q.phase) :
    levelAt (repetitionSegs f) (segStart q.phase q.idx + u) = level q.phase f q.idx := by
  obtain ⟨p, r, i⟩ := q
  cases p with
  | idle => exact absurd rfl hbusy
  | preLow =>
    have hu : u < 1250 := hu
    have hi : i.toNat ≤ 11 := hq.2.1 (.inl rfl)
    rw [segStart_preLow, levelAt_repetitionSegs_pulse f (Nat.lt_succ_iff.2 hi) (by omega)]
    exact decide_eq_false (by omega)
  | preHigh =>
    have hu : u < 1750 := hu
    have hi : i.toNat ≤ 11 := hq.2.1 (.inr rfl)
    rw [segStart_preHigh, Nat.add_assoc, levelAt_repetitionSegs_pulse f (Nat.lt_succ_iff.2 hi) (by omega)]
    exact decide_eq_true (by omega)
  | preGap =>
    have hu : u < 3000 := hu
    rw [segStart_preGap, levelAt_repetitionSegs_sync f (by omega) (by omega)]
    exact decide_eq_false (by omega)
  | syncLow1 =>
    have hu : u < 4200 := hu
    rw [segStart_syncLow1, levelAt_repetitionSegs_sync f (by omega) (by omega)]
    exact decide_eq_false (by omega)
  | syncHigh =>
    have hu : u < 5700 := hu
    rw [segStart_syncHigh, levelAt_repetitionSegs_sync f (by omega) (by omega)]
    exact decide_eq_true (by omega)
  | syncLow2 =>
    have hu : u < 5200 := hu
    rw [segStart_syncLow2, levelAt_repetitionSegs_sync f (by omega) (by omega)]
    exact decide_eq_false (by omega)
  | bitFirst =>
    have hu : u < 1450 := hu
    rw [segStart_bitFirst, Nat.add_assoc, levelAt_repetitionSegs_data f i.isLt (by omega), if_pos hu, level]
  | bitSecond =>
    have hu : u < 1475 := hu
    rw [segStart_bitSecond, Nat.add_assoc, Nat.add_assoc, levelAt_repetitionSegs_data f i.isLt (by omega),
      if_neg (by omega), level]
  | pause =>
    rw [segStart_pause, levelAt_repetitionSegs_pause, level]

/-- Both repetitions show the same levels. -/
theorem levelAt_txcycleSegs (f : Word32) (r : Bool) {t : Nat} (ht : t < 247700) :
    levelAt (txcycleSegs f) (repStartUs r + t) = levelAt (repetitionSegs f) t := by
  have htotal := totalDur_repetitionSegs f
  rw [txcycleSegs_eq]
  cases r with
  | false => rw [repStartUs_false, Nat.zero_add, levelAt_append_of_lt _ (by omega)]
  | true => rw [repStartUs_true, ← htotal, levelAt_append_add]

/-- In `BUSY` the pin is the level of the trace at the tick's number in microseconds (R128). -/
theorem pin_eq_levelAt_txcycleSegs {s : State} (hs : s.PositionOk Config.hw) (hbusy : s.phase ≠ .idle) :
    s.pin = levelAt (txcycleSegs s.frame) (cycleTick Config.hw s) := by
  obtain ⟨hgood, _, htimer, hpin⟩ := (positionOk_iff _ s).1 hs
  have hbound : s.timer.toNat < dur s.phase := (htimer hbusy).trans_eq (Nat.div_one _)
  have hseg : segStart s.phase s.idx + dur s.phase ≤ 247700 := segEnd_le_repetitionUs hgood
  have htick : cycleTick Config.hw s =
      repStartUs s.rep + (segStart s.phase s.idx + (dur s.phase - 1 - s.timer.toNat)) := by
    rw [← Nat.add_assoc]
    exact congrArg₂ (fun a b => a + (b - 1 - s.timer.toNat)) (Nat.div_one _) (Nat.div_one _)
  rw [htick, levelAt_txcycleSegs s.frame s.rep (by omega), hpin]
  exact (levelAt_repetitionSegs_position s.frame hgood hbusy (u := dur s.phase - 1 - s.timer.toNat)
    (show _ < dur s.phase by omega)).symm

end Sys2Proof.Proofs
end

section
/-! SUPPORT. A cycle from its trigger to its end: the pin follows the trace (R128), the hardware is in `BUSY`
for the cycle's duration (R129, R171), and the state at the end (R134). -/

namespace Sys2Proof.Proofs

open Sys2Proof.Machine Sys2Proof.Laws

/-! ### The edges left in a cycle under way -/

/-- Settles O52: each edge without `rst` is an advance, which uses up one of the edges left. -/
theorem busyRunsToCompletion : Obligations.BusyRunsToCompletion := by
  intro s ps l hs _ hrst hlen hstim
  refine ⟨_, run_edges_of_le_ticksLeft ps l hs hrst hlen hstim, ?_, advance_iterate_reading _ _ s,
    advance_iterate_frame _ _ s, rfl⟩
  exact (advance_iterate_phase_idle_iff hw_wf ps.length hs).trans ⟨hlen.antisymm, Eq.ge⟩

/-! ### The accepted trigger -/

/-- An accepted trigger starts the cycle, and the write port decides the Reading. -/
theorem acceptRequests_of_trigger {p : Ports} (htrigger : p.trigger = true) (s : State) :
    acceptRequests p s =
      { startCycle Config.hw s with reading := if p.wrValid then p.wr else s.reading } := by
  simp [acceptRequests, htrigger, startCycle_hw]

theorem acceptRequests_positionOk {p : Ports} (htrigger : p.trigger = true) (s : State) :
    (acceptRequests p s).PositionOk Config.hw := by
  rw [acceptRequests_of_trigger htrigger]
  exact startCycle_positionOk hw_wf s

/-- At the first tick of a cycle all its edges are left. -/
theorem ticksLeft_acceptRequests {p : Ports} (htrigger : p.trigger = true) (s : State) :
    ticksLeft Config.hw (acceptRequests p s) = 495400 := by
  have htick : cycleTick Config.hw (startCycle Config.hw s) = 0 :=
    cycleTick_enter hw_wf _ (q := ⟨.preLow, false, 0⟩) nofun
  have hleft : ticksLeft Config.hw (startCycle Config.hw s) = 495400 := by
    rw [ticksLeft, if_neg (by rw [startCycle_phase]; nofun), htick]
    rfl
  rw [acceptRequests_of_trigger htrigger]
  exact hleft

/-- The edge with the trigger starts the cycle, and the edges after it are advances up to the cycle's end. -/
theorem run_cycle {s : State} {p : Ports} {ps : List Ports} {l : List Event} (hidle : s.phase = .idle)
    (hrst : p.rst = false) (htrigger : p.trigger = true) (hps : ∀ q ∈ ps, q.rst = false)
    (hlen : ps.length ≤ 495400) (hstim : s.stim = edges (p :: ps) ++ l) :
    Host.Core.run Sys2Proof.core (ps.length + 1) s =
      .next { (advance Config.hw)^[ps.length] (acceptRequests p s) with stim := l } := by
  have hstep : step s = .next { acceptRequests p s with stim := edges ps ++ l } :=
    step_edge_of_idle hstim hidle hrst
  rw [run_succ_of_step hstep]
  exact run_with_edges_of_le_ticksLeft ps l (acceptRequests_positionOk htrigger s) hps
    (hlen.trans_eq (ticksLeft_acceptRequests htrigger s).symm)

/-! ### The pin during the cycle -/

/-- After fewer edges than a cycle has, the hardware is in `BUSY` and in the tick of that number. -/
theorem advance_iterate_cycleTick {s : State} {k : Nat} (hs : s.PositionOk Config.hw)
    (hleft : ticksLeft Config.hw s = 495400) (hk : k < 495400) :
    ((advance Config.hw)^[k] s).phase ≠ .idle ∧ cycleTick Config.hw ((advance Config.hw)^[k] s) = k := by
  have hgood := advance_iterate_positionOk hw_wf k hs
  have hbusy : ((advance Config.hw)^[k] s).phase ≠ .idle := by
    rw [Ne, advance_iterate_phase_idle_iff hw_wf k hs]
    omega
  have hlt : cycleTick Config.hw ((advance Config.hw)^[k] s) < 495400 := cycleTick_lt hw_wf hgood hbusy
  have hrest := ticksLeft_advance_iterate hw_wf k hs
  rw [ticksLeft, if_neg hbusy, hleft] at hrest
  have hcycle : cycleUs / Config.hw.tickUs = 495400 := rfl
  exact ⟨hbusy, by omega⟩

/-- Settles O50: the tick after `k` edges has the number `k`, and in `BUSY` the pin is the level of the trace
at the tick's number. -/
theorem acceptedTriggerSendsTheTrace : Obligations.AcceptedTriggerSendsTheTrace := by
  intro s p ps l hidle hrst htrigger hps hlen hstim
  have hstart := acceptRequests_positionOk htrigger s
  obtain ⟨hbusy, htick⟩ := advance_iterate_cycleTick hstart (ticksLeft_acceptRequests htrigger s) hlen
  have hpin := pin_eq_levelAt_txcycleSegs (advance_iterate_positionOk hw_wf ps.length hstart) hbusy
  have hframe : ((advance Config.hw)^[ps.length] (acceptRequests p s)).frame =
      encodeFrame Config.hw s.reading :=
    (advance_iterate_frame _ _ _).trans (if_pos htrigger)
  rw [hframe, htick] at hpin
  exact ⟨_, run_cycle hidle hrst htrigger hps hlen.le hstim, hpin, (busy_eq_true _).2 hbusy, hframe, htick, rfl⟩

/-- Settles O51: the run reaches the end of the cycle, which puts back the sequencer's registers and the pin
as they are in `IDLE`. -/
theorem cycleEndsAfterItsDuration : Obligations.CycleEndsAfterItsDuration := by
  intro s p ps l hs hidle hrst htrigger hps hlen hstim
  obtain ⟨hrep, hidx, htimer, hpin⟩ := hs.1 hidle
  have hrun := run_cycle hidle hrst htrigger hps hlen.le hstim
  have hend : (advance Config.hw)^[495400] (acceptRequests p s) = cycleEnd (acceptRequests p s) := by
    rw [cycleEnd, ticksLeft_acceptRequests htrigger]
  rw [hlen, hend, cycleEnd_eq (acceptRequests_positionOk htrigger s), acceptRequests_of_trigger htrigger] at hrun
  rw [hrun]
  simp [startCycle_hw, hidle, hrep, hidx, htimer, hpin]

end Sys2Proof.Proofs
end

section
/-! SUPPORT. The run-length form (R119) of a frame: it shows the same waveform, the frame can be read back
from it (R120), and the widths of its HIGH runs (R121). -/

namespace Sys2Proof.Proofs

open Sys2Proof.Machine Sys2Proof.Laws

/-! ### Joining one segment -/

theorem runLengths_cons (g : Seg) (l : List Seg) : runLengths (g :: l) = joinRun g (runLengths l) := rfl

theorem joinRun_of_eq {g h : Seg} (l : List Seg) (heq : h.level = g.level) :
    joinRun g (h :: l) = ⟨g.level, g.dur + h.dur⟩ :: l := if_pos heq

theorem joinRun_of_ne {g h : Seg} (l : List Seg) (hne : h.level ≠ g.level) :
    joinRun g (h :: l) = g :: h :: l := if_neg hne

/-- Everything that joining a segment can do: put it before the list, or add its duration to the first run. -/
theorem joinRun_cases (g : Seg) (l : List Seg) :
    (joinRun g l = g :: l ∧ ∀ h ∈ l.head?, g.level ≠ h.level) ∨
    ∃ h m, l = h :: m ∧ h.level = g.level ∧ joinRun g l = ⟨g.level, g.dur + h.dur⟩ :: m := by
  cases l with
  | nil => exact .inl ⟨rfl, nofun⟩
  | cons h m =>
    by_cases heq : h.level = g.level
    · exact .inr ⟨h, m, rfl, heq, joinRun_of_eq m heq⟩
    · refine .inl ⟨joinRun_of_ne m heq, fun k hk => ?_⟩
      obtain rfl : h = k := Option.some.inj hk
      exact Ne.symm heq

/-- The first run after a join has the level of the segment joined. -/
theorem joinRun_eq_cons (g : Seg) (l : List Seg) : ∃ d m, joinRun g l = ⟨g.level, d⟩ :: m := by
  rcases joinRun_cases g l with ⟨e, _⟩ | ⟨h, m, _, _, e⟩
  · exact ⟨g.dur, l, e⟩
  · exact ⟨_, m, e⟩

/-! ### The same waveform (R119) -/

theorem levelAt_joinRun (g : Seg) (l : List Seg) (t : Nat) : levelAt (joinRun g l) t = levelAt (g :: l) t := by
  rcases joinRun_cases g l with ⟨e, _⟩ | ⟨h, m, rfl, heq, e⟩ <;> rw [e]
  have hrest : t - (g.dur + h.dur) = t - g.dur - h.dur := (Nat.sub_sub _ _ _).symm
  simp only [levelAt, heq, hrest]
  by_cases hfirst : t < g.dur
  · rw [if_pos hfirst, if_pos (by omega)]
  · by_cases hsecond : t - g.dur < h.dur
    · rw [if_neg hfirst, if_pos hsecond, if_pos (by omega)]
    · rw [if_neg hfirst, if_neg hsecond, if_neg (by omega)]

theorem totalDur_joinRun (g : Seg) (l : List Seg) : totalDur (joinRun g l) = totalDur (g :: l) := by
  rcases joinRun_cases g l with ⟨e, _⟩ | ⟨h, m, rfl, _, e⟩ <;> rw [e]
  simp [Nat.add_assoc]

theorem levelAt_runLengths (l : List Seg) (t : Nat) : levelAt (runLengths l) t = levelAt l t := by
  induction l generalizing t with
  | nil => rfl
  | cons g l ih => rw [runLengths_cons, levelAt_joinRun, levelAt, levelAt, ih]

theorem totalDur_runLengths (l : List Seg) : totalDur (runLengths l) = totalDur l := by
  induction l with
  | nil => rfl
  | cons g l ih => rw [runLengths_cons, totalDur_joinRun, totalDur_cons, totalDur_cons, ih]

/-- No two neighbours have one level. -/
def Alternating (l : List Seg) : Prop := l.IsChain fun g h => g.level ≠ h.level

theorem joinRun_alternating {g : Seg} {l : List Seg} (hl : Alternating l) : Alternating (joinRun g l) := by
  rcases joinRun_cases g l with ⟨e, hhead⟩ | ⟨h, m, rfl, heq, e⟩ <;> rw [e]
  · exact List.isChain_cons.2 ⟨hhead, hl⟩
  · obtain ⟨hhead, hm⟩ := List.isChain_cons.1 hl
    refine List.isChain_cons.2 ⟨fun k hk => ?_, hm⟩
    rw [← heq]
    exact hhead k hk

theorem runLengths_alternating (l : List Seg) : Alternating (runLengths l) := by
  induction l with
  | nil => exact .nil
  | cons g l ih => exact joinRun_alternating ih

theorem Alternating.level_ne {l : List Seg} (hl : Alternating l) {i : Nat} {g h : Seg} (hg : l[i]? = some g)
    (hh : l[i + 1]? = some h) : g.level ≠ h.level := by
  obtain ⟨hi, rfl⟩ := List.getElem?_eq_some_iff.1 hh
  obtain ⟨_, rfl⟩ := List.getElem?_eq_some_iff.1 hg
  exact List.IsChain.getElem hl i hi

/-- Settles O56: joining one segment keeps the waveform and makes no neighbours of one level. -/
theorem runLengthsAreTheSameWaveform : Obligations.RunLengthsAreTheSameWaveform := fun l =>
  ⟨levelAt_runLengths l, totalDur_runLengths l, fun _ _ _ => (runLengths_alternating l).level_ne⟩

/-! ### The runs of a frame before its data -/

theorem runLengths_ne_nil {l : List Seg} (hl : l ≠ []) : runLengths l ≠ [] := by
  obtain ⟨g, l, rfl⟩ := List.exists_cons_of_ne_nil hl
  obtain ⟨d, m, e⟩ := joinRun_eq_cons g (runLengths l)
  rw [runLengths_cons, e]
  exact List.cons_ne_nil _ m

/-- A join reads the first run only. -/
theorem joinRun_append {l : List Seg} (hl : l ≠ []) (g : Seg) (m : List Seg) :
    joinRun g (l ++ m) = joinRun g l ++ m := by
  obtain ⟨h, l, rfl⟩ := List.exists_cons_of_ne_nil hl
  by_cases heq : h.level = g.level
  · rw [List.cons_append, joinRun_of_eq _ heq, joinRun_of_eq _ heq, List.cons_append]
  · rw [List.cons_append, joinRun_of_ne _ heq, joinRun_of_ne _ heq, List.cons_append, List.cons_append]

/-- Where the level changes, the run-length forms are put one after the other. -/
theorem runLengths_append_cons {g h : Seg} (l m : List Seg) (hne : h.level ≠ g.level) :
    runLengths (l ++ g :: h :: m) = runLengths (l ++ [g]) ++ runLengths (h :: m) := by
  induction l with
  | nil =>
    obtain ⟨d, n, e⟩ := joinRun_eq_cons h (runLengths m)
    rw [List.nil_append, runLengths_cons, runLengths_cons, e, joinRun_of_ne (h := ⟨h.level, d⟩) n hne]
    rfl
  | cons k l ih =>
    rw [List.cons_append, runLengths_cons k, ih, List.cons_append, runLengths_cons k,
      joinRun_append (runLengths_ne_nil (by simp))]

/-- The runs up to the end of the sync pulse: the gap and the LOW before the sync pulse are one run. -/
def headRuns : List Seg := repeatSegs 12 pulseSegs ++ [⟨false, 7200⟩, ⟨true, 5700⟩]

/-- What follows the sync pulse. -/
def tailSegs (f : Word32) : List Seg := ⟨false, 5200⟩ :: dataSegs f

theorem runLengths_txframeSegs (f : Word32) :
    runLengths (txframeSegs f) = headRuns ++ runLengths (tailSegs f) := by
  have hsplit : txframeSegs f =
      (preambleSegs ++ [⟨false, 4200⟩]) ++ ⟨true, 5700⟩ :: ⟨false, 5200⟩ :: dataSegs f := by
    rw [txframeSegs, List.append_assoc, List.append_assoc]
    rfl
  have hhead : runLengths ((preambleSegs ++ [⟨false, 4200⟩]) ++ [⟨true, 5700⟩]) = headRuns := by decide
  rw [hsplit, runLengths_append_cons _ _ Bool.false_ne_true, hhead, tailSegs]

/-! ### Reading a frame back (R120) -/

theorem syncEnd_runLengths_txframeSegs (f : Word32) : syncEnd (runLengths (txframeSegs f)) = some 48900 := by
  rw [runLengths_txframeSegs]
  rfl

/-- The first half of each bit, counted from the end of the sync pulse, shows the bit. -/
theorem levelAt_runLengths_bit (f : Word32) {i u : Nat} (hi : i < 32) (hu : u < 1450) :
    levelAt (runLengths (txframeSegs f)) (48900 + 5200 + 2925 * i + u) = f.getLsbD i := by
  rw [levelAt_runLengths, Nat.add_assoc (48900 + 5200), levelAt_txframeSegs_data f hi (by omega), if_pos hu]

/-- Settles O57: the sync pulse ends at 48900 us and the first halves of the bits are read from there; the bits
that are read determine the frame. -/
theorem frameCanBeReadBackFromThePin : Obligations.FrameCanBeReadBackFromThePin := by
  refine fun f => ⟨⟨48900, syncEnd_runLengths_txframeSegs f, fun i hi u hu => levelAt_runLengths_bit f hi hu⟩,
    fun g hsame => BitVec.eq_of_getLsbD_eq fun i hi => ?_⟩
  rw [← levelAt_runLengths_bit f hi (u := 0) (by omega), hsame, levelAt_runLengths_bit g hi (by omega)]

/-! ### The widths of the runs (R121) -/

/-- Runs of data bits: each is a half of a bit or two halves of one level joined, and the first is the first
half of a bit alone. -/
def DataRuns (l : List Seg) : Prop :=
  (∀ g ∈ l, g.dur ∈ [1450, 1475, 2925]) ∧ ∀ g ∈ l.head?, g.dur = 1450

/-- The second half of a bit joins the first half of the next one, or stays alone; the first half never joins
the second. -/
theorem runLengths_symSegs_append {l : List Seg} (hl : DataRuns (runLengths l)) (b : Bool) :
    DataRuns (runLengths (symSegs b ++ l)) := by
  obtain ⟨hwidths, hhead⟩ := hl
  have hfirst : runLengths (symSegs b ++ l) = joinRun ⟨b, 1450⟩ (joinRun ⟨!b, 1475⟩ (runLengths l)) := rfl
  have hsecond : ∀ g ∈ joinRun ⟨!b, 1475⟩ (runLengths l), g.dur ∈ [1450, 1475, 2925] := by
    rcases joinRun_cases ⟨!b, 1475⟩ (runLengths l) with ⟨e, _⟩ | ⟨h, m, hruns, _, e⟩ <;> rw [e]
    · exact List.forall_mem_cons.2 ⟨by simp, hwidths⟩
    · rw [hruns] at hwidths hhead
      have hdur : h.dur = 1450 := hhead h rfl
      exact List.forall_mem_cons.2 ⟨by simp [hdur], fun g hg => hwidths g (List.mem_cons_of_mem h hg)⟩
  obtain ⟨d, m, e⟩ := joinRun_eq_cons ⟨!b, 1475⟩ (runLengths l)
  rw [hfirst, e, joinRun_of_ne m (Bool.not_ne_self b), ← e]
  refine ⟨List.forall_mem_cons.2 ⟨by simp, hsecond⟩, fun g hg => ?_⟩
  obtain rfl := Option.some.inj hg
  rfl

theorem dataRuns_symSegs (b : Nat → Bool) (l : List Nat) :
    DataRuns (runLengths (l.flatMap fun i => symSegs (b i))) := by
  induction l with
  | nil => exact ⟨nofun, nofun⟩
  | cons i l ih =>
    rw [List.flatMap_cons]
    exact runLengths_symSegs_append ih (b i)

/-- After the sync pulse every HIGH run is one of the data's: the LOW before the data joins LOW only. -/
theorem high_mem_tailSegs {f : Word32} {g : Seg} (hg : g ∈ runLengths (tailSegs f)) (hhigh : g.level = true) :
    g.dur ∈ [1450, 1475, 2925] := by
  have hdata : ∀ k ∈ runLengths (dataSegs f), k.dur ∈ [1450, 1475, 2925] := (dataRuns_symSegs f.getLsbD _).1
  rw [tailSegs, runLengths_cons] at hg
  rcases joinRun_cases ⟨false, 5200⟩ (runLengths (dataSegs f)) with ⟨e, _⟩ | ⟨h, m, hruns, _, e⟩ <;>
    rw [e] at hg
  · rcases List.mem_cons.1 hg with rfl | hmem
    · cases hhigh
    · exact hdata g hmem
  · rcases List.mem_cons.1 hg with rfl | hmem
    · cases hhigh
    · exact hdata g (hruns ▸ List.mem_cons_of_mem h hmem)

theorem high_mem_headRuns : ∀ g ∈ headRuns, g.level = true → g.dur ∈ [1750, 5700] := by decide

/-- A width that the data does not have is counted before the data only. -/
theorem length_filter_high_txframeSegs (f : Word32) {d : Nat} (hd : d ∉ [1450, 1475, 2925]) :
    ((runLengths (txframeSegs f)).filter fun g => g.level && g.dur == d).length =
      (headRuns.filter fun g => g.level && g.dur == d).length := by
  have hnone : (runLengths (tailSegs f)).filter (fun g => g.level && g.dur == d) = [] := by
    refine List.filter_eq_nil_iff.2 fun g hg hcounted => hd ?_
    rw [Bool.and_eq_true, beq_iff_eq] at hcounted
    obtain ⟨hhigh, rfl⟩ := hcounted
    exact high_mem_tailSegs hg hhigh
  rw [runLengths_txframeSegs, List.filter_append, hnone, List.append_nil]

/-- Settles O58: the HIGH runs before the data are the twelve pulses and the sync pulse, and those of the data
have other widths. -/
theorem highPulseWidthsOfAFrame : Obligations.HighPulseWidthsOfAFrame := by
  intro f
  refine ⟨fun g hg hhigh => ?_, ?_, ?_⟩
  · rw [runLengths_txframeSegs] at hg
    rcases List.mem_append.1 hg with hhead | htail
    · exact List.mem_append_left [1450, 1475, 2925] (high_mem_headRuns g hhead hhigh)
    · exact List.mem_append_right [1750, 5700] (high_mem_tailSegs htail hhigh)
  · rw [length_filter_high_txframeSegs f (by decide)]
    rfl
  · rw [length_filter_high_txframeSegs f (by decide)]
    rfl

end Sys2Proof.Proofs
end
